-- ==== Sys2Proof/Word.lean ====
section
/-! DEFINITION. The two word types of the machine (spec/00_scope.md R10, R12). -/

namespace Sys2Proof

/-- A byte: the data width, the opcode width, the width of `A`, `X`, `Y`, `SP`, `P` (R10). -/
abbrev Byte := BitVec 8

/-- A word: the address width and the width of `PC` (R10). -/
abbrev Word := BitVec 16

end Sys2Proof
end

