-- ==== Sys2Proof/Machine/HostAction.lean ====
section
/-! DEFINITION. What the host may do to the machine (spec/60_exceptions.md R270, R276), and how a state says what it
will do. -/

namespace Sys2Proof.Machine

/-- What the host may do between two instructions beside `tick()` and that changes the machine
(spec/60_exceptions.md R276). -/
inductive HostEvent where
  /-- `reset()` (R272, R290) -/
  | reset
  /-- `interrupt_request()` (R253) -/
  | interruptRequest
  /-- `non_maskable_interrupt()` (R254) -/
  | nonMaskableInterrupt
  /-- IF-PIN: `REG[2] <- v` (R273) -/
  | writeKeyboard (v : Byte)
  /-- IF-PIN: `REG[3] <- v` -/
  | writeMouseX (v : Byte)
  /-- IF-PIN: `REG[4] <- v` -/
  | writeMouseY (v : Byte)
  /-- IF-PIN: `REG[15] <- v` -/
  | writeInterruptId (v : Byte)
  /-- IF-REND: `DIRTY <- false` (R66) -/
  | clearDirty
  deriving DecidableEq, Repr

/-- One host action (R276): run one instruction, or one of the events. -/
inductive HostAction where
  | tick
  | event (e : HostEvent)
  deriving DecidableEq, Repr, Inhabited

/-- What the host does once its listed actions are used up. -/
inductive HostLater where
  /-- it calls `tick()` for ever (the premise `TICK_ONLY` of spec/92_eei_decisions.md, R276) -/
  | ticks
  /-- any infinite sequence of actions, a free value, of which `n` have been taken (`Config.hostAction`) -/
  | free (n : Nat)
  deriving DecidableEq, Repr

/-- The host's sequence of actions (R37, R270), finite list first (notes/assumptions/7.md). -/
structure HostScript where
  soon : List HostAction
  later : HostLater
  deriving DecidableEq, Repr

end Sys2Proof.Machine
end

