-- ==== Sys2Proof/Config.lean ====
section
/-! DEFINITION. The parameters the spec leaves open or states in two ways (spec/00_scope.md R11), and the
free values of the random source (spec/20_memory.md R79) and of the host (spec/60_exceptions.md R276). The values the
spec takes are in `Sys2Proof/Machine/Params.lean`. -/

namespace Sys2Proof

/-- `ROR_INSERT`: how ROR puts the old Carry into bit 0 (R11, R195, decision D12). -/
inductive RorInsert where
  | or
  | replace
  deriving DecidableEq, Repr

/-- `STACK_DISCIPLINE`: push and pop order (R11, R170, R171, decision D3). -/
inductive StackDiscipline where
  | predecPostinc
  | postdecPreinc
  deriving DecidableEq, Repr

/-- `DECINC_CARRY`: Carry after the increments and decrements (R11, R160, decision D11). -/
inductive DecIncCarry where
  | wrapped
  | borrow
  deriving DecidableEq, Repr

/-- `RNG_RANGE`: the bytes a read of slot 9 may return, `0..255` or the document's literal `[0, 255)`
(R11, R79, decision D15). -/
inductive RngRange where
  | full
  | below255
  deriving DecidableEq, Repr

/-- The parameters of R11, one field each; every state carries them, so that a claim can name or quantify over them.
`absentOpcodes` is `OPCODE_SET` by its complement: the documented opcodes the platform's table lacks. -/
structure Config where
  forceMask : Byte
  rorInsert : RorInsert
  stackDiscipline : StackDiscipline
  zpPtrWrap : Bool
  jmpIndPageBug : Bool
  decIncCarry : DecIncCarry
  rngRange : RngRange
  absentOpcodes : List Byte
  deriving DecidableEq, Repr

/-- The `n`-th draw of the random source, `draw8()` (R12, R79): a FREE VALUE, no body, under no law. -/
opaque Config.randomByte : Nat → Byte

/-- The `n`-th action of a host that is left open (R270, R276): a FREE VALUE, no body, under no law. -/
opaque Config.hostAction : Nat → Machine.HostAction

end Sys2Proof
end

