-- ==== Sys2Proof/Machine/Params.lean ====
section
/-! DEFINITION. The value this platform takes for each parameter of spec/00_scope.md R11.
DESIGN CHOICE (the spec's own decisions D1, D2, D3, D7, D8, D11, D12, D15; unsafe, notes/assumptions/5.md). -/

namespace Sys2Proof.Machine

/-- "value taken" of R11, parameter by parameter. -/
def platform : Config where
  forceMask := 0x18
  rorInsert := .or
  stackDiscipline := .predecPostinc
  zpPtrWrap := false
  jmpIndPageBug := false
  decIncCarry := .wrapped
  rngRange := .full
  absentOpcodes := []

end Sys2Proof.Machine
end

