-- ==== Sys2Proof/Machine/Memory.lean ====
section
/-! DEFINITION. Byte stores as plain data: a list of (address, byte) pairs in one canonical form. RAM, the ROM
image and the cartridge image (spec/10_state.md R31 to R33) are each one of these. -/

namespace Sys2Proof.Machine

/-- A byte store: addresses strictly rising, and no entry equal to `unlistedByte`. -/
abbrev Memory := List Host.Cell

/-- What an address with no entry reads as. For the two images the spec's zero padding
(spec/70_reset_and_hazards.md R293); for RAM the default R293 offers, "marked as a default and not as hardware
behaviour". DESIGN CHOICE (unsafe for claims about `State.reset` only, notes/assumptions/1.md). -/
def unlistedByte : Byte := 0

/-- The byte at an address. -/
def Memory.read : Memory → Nat → Byte
  | [], _ => unlistedByte
  | (k, v) :: rest, a => if k = a then v else Memory.read rest a

/-- The store with the byte at one address replaced; storing `unlistedByte` removes the entry. -/
def Memory.write : Memory → Nat → Byte → Memory
  | [], a, v => if v = unlistedByte then [] else [(a, v)]
  | (k, u) :: rest, a, v =>
    if a < k then (if v = unlistedByte then (k, u) :: rest else (a, v) :: (k, u) :: rest)
    else if a = k then (if v = unlistedByte then rest else (a, v) :: rest)
    else (k, u) :: Memory.write rest a v

/-- The canonical form. -/
abbrev Memory.wf (m : Memory) : Prop :=
  m.Pairwise (fun c d => c.1 < d.1) ∧ ∀ c ∈ m, c.2 ≠ unlistedByte

/-- Every listed address satisfies `p`. -/
abbrev Memory.within (p : Nat → Bool) (m : Memory) : Prop := ∀ c ∈ m, p c.1 = true

end Sys2Proof.Machine
end

