-- ==== Sys2Proof/Syntax.lean ====
section
/-! DEFINITION. The instruction set as syntax: one constructor per row of spec/opcode_table.json, that is per
(mnemonic, addressing mode) pair of spec/30_encoding.md R120. A constructor's argument is the operand the
instruction carries: `v` an immediate byte, `zp` a zero-page byte, `addr` or `ptr` a 16-bit address, `off` a
branch offset. The endings name the mode (R105): `Acc`, `Imm`, `Zp`, `Zpx`, `Zpy`, `Abs`, `Abx`, `Aby`, `Ind`,
`Izx`, `Izy`; implied and relative instructions, and JSR, have one mode and no ending. -/

namespace Sys2Proof

inductive Instr where
  -- spec/40_load_store.md
  -- LDA, R140
  | ldaImm (v : Byte)
  | ldaZp (zp : Byte)
  | ldaZpx (zp : Byte)
  | ldaAbs (addr : Word)
  | ldaAbx (addr : Word)
  | ldaAby (addr : Word)
  | ldaIzx (zp : Byte)
  | ldaIzy (zp : Byte)
  -- LDX, R141
  | ldxImm (v : Byte)
  | ldxZp (zp : Byte)
  | ldxZpy (zp : Byte)
  | ldxAbs (addr : Word)
  | ldxAby (addr : Word)
  -- LDY, R142
  | ldyImm (v : Byte)
  | ldyZp (zp : Byte)
  | ldyZpx (zp : Byte)
  | ldyAbs (addr : Word)
  | ldyAbx (addr : Word)
  -- STA, R143
  | staZp (zp : Byte)
  | staZpx (zp : Byte)
  | staAbs (addr : Word)
  | staAbx (addr : Word)
  | staAby (addr : Word)
  | staIzx (zp : Byte)
  | staIzy (zp : Byte)
  -- STX, R144
  | stxZp (zp : Byte)
  | stxZpy (zp : Byte)
  | stxAbs (addr : Word)
  -- STY, R145
  | styZp (zp : Byte)
  | styZpx (zp : Byte)
  | styAbs (addr : Word)
  -- spec/41_transfer.md
  -- TAX, R150
  | tax
  -- TAY, R151
  | tay
  -- TXA, R152
  | txa
  -- TYA, R153
  | tya
  -- TSX, R154
  | tsx
  -- TXS, R155
  | txs
  -- spec/42_incdec.md
  -- INC, R161
  | incZp (zp : Byte)
  | incZpx (zp : Byte)
  | incAbs (addr : Word)
  | incAbx (addr : Word)
  -- DEC, R162
  | decZp (zp : Byte)
  | decZpx (zp : Byte)
  | decAbs (addr : Word)
  | decAbx (addr : Word)
  -- INX, R163
  | inx
  -- INY, R164
  | iny
  -- DEX, R165
  | dex
  -- DEY, R166
  | dey
  -- spec/43_stack.md
  -- PHA, R174
  | pha
  -- PLA, R175
  | pla
  -- PHP, R176
  | php
  -- PLP, R177
  | plp
  -- spec/44_logic_arith.md
  -- AND, R181
  | andImm (v : Byte)
  | andZp (zp : Byte)
  | andZpx (zp : Byte)
  | andAbs (addr : Word)
  | andAbx (addr : Word)
  | andAby (addr : Word)
  | andIzx (zp : Byte)
  | andIzy (zp : Byte)
  -- ORA, R182
  | oraImm (v : Byte)
  | oraZp (zp : Byte)
  | oraZpx (zp : Byte)
  | oraAbs (addr : Word)
  | oraAbx (addr : Word)
  | oraAby (addr : Word)
  | oraIzx (zp : Byte)
  | oraIzy (zp : Byte)
  -- EOR, R183
  | eorImm (v : Byte)
  | eorZp (zp : Byte)
  | eorZpx (zp : Byte)
  | eorAbs (addr : Word)
  | eorAbx (addr : Word)
  | eorAby (addr : Word)
  | eorIzx (zp : Byte)
  | eorIzy (zp : Byte)
  -- BIT, R184
  | bitZp (zp : Byte)
  | bitAbs (addr : Word)
  -- ADC, R186
  | adcImm (v : Byte)
  | adcZp (zp : Byte)
  | adcZpx (zp : Byte)
  | adcAbs (addr : Word)
  | adcAbx (addr : Word)
  | adcAby (addr : Word)
  | adcIzx (zp : Byte)
  | adcIzy (zp : Byte)
  -- SBC, R187
  | sbcImm (v : Byte)
  | sbcZp (zp : Byte)
  | sbcZpx (zp : Byte)
  | sbcAbs (addr : Word)
  | sbcAbx (addr : Word)
  | sbcAby (addr : Word)
  | sbcIzx (zp : Byte)
  | sbcIzy (zp : Byte)
  -- spec/45_shift_rotate.md
  -- ASL, R196
  | aslAcc
  | aslZp (zp : Byte)
  | aslZpx (zp : Byte)
  | aslAbs (addr : Word)
  | aslAbx (addr : Word)
  -- LSR, R197
  | lsrAcc
  | lsrZp (zp : Byte)
  | lsrZpx (zp : Byte)
  | lsrAbs (addr : Word)
  | lsrAbx (addr : Word)
  -- ROL, R198
  | rolAcc
  | rolZp (zp : Byte)
  | rolZpx (zp : Byte)
  | rolAbs (addr : Word)
  | rolAbx (addr : Word)
  -- ROR, R199
  | rorAcc
  | rorZp (zp : Byte)
  | rorZpx (zp : Byte)
  | rorAbs (addr : Word)
  | rorAbx (addr : Word)
  -- spec/46_compare.md
  -- CMP, R206
  | cmpImm (v : Byte)
  | cmpZp (zp : Byte)
  | cmpZpx (zp : Byte)
  | cmpAbs (addr : Word)
  | cmpAbx (addr : Word)
  | cmpAby (addr : Word)
  | cmpIzx (zp : Byte)
  | cmpIzy (zp : Byte)
  -- CPX, R207
  | cpxImm (v : Byte)
  | cpxZp (zp : Byte)
  | cpxAbs (addr : Word)
  -- CPY, R208
  | cpyImm (v : Byte)
  | cpyZp (zp : Byte)
  | cpyAbs (addr : Word)
  -- spec/47_branch.md
  -- BPL, R211
  | bpl (off : Byte)
  -- BMI, R212
  | bmi (off : Byte)
  -- BVC, R213
  | bvc (off : Byte)
  -- BVS, R214
  | bvs (off : Byte)
  -- BCC, R215
  | bcc (off : Byte)
  -- BCS, R216
  | bcs (off : Byte)
  -- BNE, R217
  | bne (off : Byte)
  -- BEQ, R218
  | beq (off : Byte)
  -- spec/48_jump_call.md
  -- JMP, R220
  | jmpAbs (addr : Word)
  | jmpInd (ptr : Word)
  -- JSR, R221
  | jsr (addr : Word)
  -- RTS, R222
  | rts
  -- spec/49_flags_brk_rti.md
  -- CLC, R230
  | clc
  -- SEC, R231
  | sec
  -- CLI, R232
  | cli
  -- SEI, R233
  | sei
  -- CLV, R234
  | clv
  -- CLD, R235
  | cld
  -- SED, R236
  | sed
  -- BRK, R237
  | brk
  -- RTI, R238
  | rti
  -- NOP, R239
  | nop
  deriving DecidableEq, Repr

end Sys2Proof
end

