-- ==== Sys2Proof/Machine/State.lean ====
section
/-! DEFINITION. The state of the machine as plain data (spec/10_state.md R20 to R37), why a step can stop, and
the state right after reset. -/

namespace Sys2Proof.Machine

/-- The nine bytes of state of the I/O register bank: slots 0 to 7 and 15 (R29, R30). -/
structure IoBank where
  /-- slot 0, `0x6000`, port B -/
  portB : Byte
  /-- slot 1, `0x6001`, port A -/
  portA : Byte
  /-- slot 2, `0x6002`, keyboard scancode / key state -/
  keyboard : Byte
  /-- slot 3, `0x6003`, mouse X -/
  mouseX : Byte
  /-- slot 4, `0x6004`, mouse Y -/
  mouseY : Byte
  /-- slot 5, `0x6005`, cartridge pointer bits 7:0 -/
  cartLo : Byte
  /-- slot 6, `0x6006`, cartridge pointer bits 15:8 -/
  cartMid : Byte
  /-- slot 7, `0x6007`, cartridge pointer bits 23:16 -/
  cartHi : Byte
  /-- slot 15, `0x600F`, pending-interrupt-id latch -/
  interruptId : Byte
  deriving DecidableEq, Repr

/-- A message on IF-DIAG, the `Log` of spec/00_scope.md R13; not architectural
(DESIGN CHOICE to record them, safe, notes/assumptions/8.md). -/
inductive Diagnostic where
  /-- R121 -/
  | unknownOpcode (op : Byte)
  /-- R55 -/
  | romWrite (addr : Word)
  /-- R80 -/
  | rngWrite
  /-- R81, a read or a write -/
  | invalidRegister (slot : Nat)
  deriving DecidableEq, Repr

/-- The whole state. The constants of a run, `config` (R11), `rom` and `cart` (R32, R33), are held here so that a step
can read them; no step writes them (notes/assumptions/14.md). The last three fields are the model's own. -/
structure State where
  /-- the parameters of R11 -/
  config : Config
  /-- accumulator (R21) -/
  a : Byte
  /-- index register X (R21) -/
  x : Byte
  /-- index register Y (R21) -/
  y : Byte
  /-- stack pointer (R22) -/
  sp : Byte
  /-- program counter (R23) -/
  pc : Word
  /-- flags (R24) -/
  p : Byte
  /-- I/O register bank (R30) -/
  bank : IoBank
  /-- RAM by CPU address, `0x0000-0x5FFF` and `0x6010-0x7FFF` (R31) -/
  ram : Memory
  /-- `ROM_IMAGE` by image offset, address less `0x8000` (R32) -/
  rom : Memory
  /-- `CART_IMAGE` by 24-bit pointer (R33) -/
  cart : Memory
  /-- framebuffer dirty flag (R34) -/
  dirty : Bool
  /-- the machine has stopped for good (R35) -/
  fatal : Bool
  /-- how many bytes the random source has given (the model's own, notes/assumptions/4.md) -/
  draws : Nat
  /-- diagnostics emitted, newest first (the model's own, notes/assumptions/8.md) -/
  diag : List Diagnostic
  /-- host actions still to come (the model's own, notes/assumptions/7.md) -/
  host : HostScript
  deriving DecidableEq, Repr

/-- Why a step has no successor. -/
inductive Fault where
  /-- Raised by `step` in a state with `FATAL` set, that is after a write to slot 8 (R78, R262): "a model gives a
  FATAL state no successor". Safe: no claim can rest on what happens after it. -/
  | fatalStop
  deriving DecidableEq, Repr

/-- Why the model gives no meaning. -/
inductive Refusal where
  /-- Raised by an arm of `exec` whose instruction has no meaning yet. Safe. No arm raises it now. -/
  | notModelled (mnemonic : String)
  deriving DecidableEq, Repr

/-- The outcome of an instruction or a step. -/
abbrev Result := Host.Outcome State Fault Refusal

/-- The register bank at launch, `REG_INIT` all zero: the default R293 offers
(DESIGN CHOICE, unsafe, notes/assumptions/2.md). -/
def IoBank.launch : IoBank := ⟨0, 0, 0, 0, 0, 0, 0, 0, 0⟩

/-- The machine right after reset (R36, R290): `A = X = Y = 0`, `SP = 0xFF`, `P = 0x34`, `PC` the word at
`0xFFFC`, which a blank ROM image makes `0x0000` (R294). The launch parameters `ROM_IMAGE`, `CART_IMAGE`,
`RAM_INIT`, `REG_INIT`, `DIRTY_INIT` are open (R293); here blank, zero and false
(DESIGN CHOICE, unsafe, notes/assumptions/1.md to 3.md), with the parameter values R11 takes (5.md) and a host that only
ticks (7.md). -/
def State.reset : State where
  config := platform
  a := 0x00
  x := 0x00
  y := 0x00
  sp := 0xFF
  pc := 0x0000
  p := 0x34
  bank := IoBank.launch
  ram := []
  rom := []
  cart := []
  dirty := false
  fatal := false
  draws := 0
  diag := []
  host := ⟨[], .ticks⟩

/-! Named updates, one per field; `Sys2Proof/Laws/State.lean` has one lemma per field of each. -/

def State.setA (s : State) (v : Byte) : State := { s with a := v }
def State.setX (s : State) (v : Byte) : State := { s with x := v }
def State.setY (s : State) (v : Byte) : State := { s with y := v }
def State.setSp (s : State) (v : Byte) : State := { s with sp := v }
def State.setPc (s : State) (v : Word) : State := { s with pc := v }
def State.setP (s : State) (v : Byte) : State := { s with p := v }
def State.setBank (s : State) (v : IoBank) : State := { s with bank := v }
def State.setRam (s : State) (v : Memory) : State := { s with ram := v }
def State.setRom (s : State) (v : Memory) : State := { s with rom := v }
def State.setDirty (s : State) (v : Bool) : State := { s with dirty := v }
def State.setFatal (s : State) (v : Bool) : State := { s with fatal := v }
def State.setDraws (s : State) (v : Nat) : State := { s with draws := v }
def State.setDiag (s : State) (v : List Diagnostic) : State := { s with diag := v }
def State.setHost (s : State) (v : HostScript) : State := { s with host := v }

end Sys2Proof.Machine
end

