-- ==== Sys2Proof/Machine/Flags.lean ====
section
/-! DEFINITION. The flags byte `P` (spec/10_state.md R24 to R27) and every flag computation of the ALU, as
functions of bytes (spec/42_incdec.md R160, spec/44_logic_arith.md R180 to R189, spec/45_shift_rotate.md R195,
spec/46_compare.md R205, spec/43_stack.md R173). None of them reads the Decimal flag (R188). -/

namespace Sys2Proof.Machine

/-- The eight bits of `P` (R13, R24): Carry, Zero, IRQ-disable, Decimal, Break, the unnamed bit 5, Overflow,
Negative. -/
inductive Flag where
  | C | Z | I | D | B | U | V | N
  deriving DecidableEq, Repr

/-- Bit number of a flag (R24). -/
def flagBit : Flag → Nat
  | .C => 0
  | .Z => 1
  | .I => 2
  | .D => 3
  | .B => 4
  | .U => 5
  | .V => 6
  | .N => 7

/-- The flag's bit value (R24). -/
def flagMask : Flag → Byte
  | .C => 0x01
  | .Z => 0x02
  | .I => 0x04
  | .D => 0x08
  | .B => 0x10
  | .U => 0x20
  | .V => 0x40
  | .N => 0x80

/-- Whether a flag is set in a flags byte. -/
def flag (f : Flag) (p : Byte) : Bool := p.getLsbD (flagBit f)

/-- `P.f <- b`: writes one flag and leaves the other seven bits (R13). -/
def putFlag (f : Flag) (b : Bool) (p : Byte) : Byte :=
  if b then p ||| flagMask f else p &&& ~~~(flagMask f)

/-- `SetZN(v)` (R180). -/
def setZN (v p : Byte) : Byte := putFlag .N v.msb (putFlag .Z (v == 0) p)

/-- The flags byte a push puts on the stack, `P OR FORCE_MASK` (R173). -/
def forcedOnPush (mask p : Byte) : Byte := p ||| mask

/-- The flags a pop leaves in `P`, `popped AND NOT8(FORCE_MASK)` (R173). -/
def restoredOnPop (mask v : Byte) : Byte := v &&& ~~~mask

/-- The 9-bit sum `t = A + m + P.C` (R185). -/
def adcSum (a m : Byte) (c : Bool) : Nat := a.toNat + m.toNat + c.toNat

/-- `r = t[7:0]` (R185). -/
def adcResult (a m : Byte) (c : Bool) : Byte := BitVec.ofNat 8 (adcSum a m c)

/-- `((A XOR r) AND (m XOR r))[7]` (R185, decision D35). -/
def adcOverflow (a m r : Byte) : Bool := ((a ^^^ r) &&& (m ^^^ r)).msb

/-- `P` after `AddWithCarry(m)` (R185); decimal mode is never applied (R188). -/
def adcFlags (a m p : Byte) : Byte :=
  let c := flag .C p
  let r := adcResult a m c
  setZN r (putFlag .V (adcOverflow a m r) (putFlag .C (decide (0xFF < adcSum a m c)) p))

/-- `P` after BIT (R184): Zero from `A AND m`, Overflow and Negative from bits 6 and 7 of `m`. -/
def bitFlags (a m p : Byte) : Byte :=
  putFlag .N (m.getLsbD 7) (putFlag .V (m.getLsbD 6) (putFlag .Z (a &&& m == 0) p))

/-- `P` after `Compare(reg, m)` (R205): Carry is `reg >= m` unsigned, Zero and Negative from `reg -8 m`. -/
def compareFlags (reg m p : Byte) : Byte :=
  setZN (reg - m) (putFlag .C (decide (m.toNat ≤ reg.toNat)) p)

/-- `Inc8` of R160: the result and `P`. Carry is set when the result wrapped, for both values of
`DECINC_CARRY`. -/
def inc8 (v p : Byte) : Byte × Byte := (v + 1, setZN (v + 1) (putFlag .C (v == 0xFF) p))

/-- Carry after a decrement, by `DECINC_CARRY` (R11, R160). -/
def decCarry : DecIncCarry → Byte → Bool
  | .wrapped, v => v == 0x00
  | .borrow, v => v != 0x00

/-- `Dec8` of R160, by `DECINC_CARRY`: the result and `P`. -/
def dec8 (d : DecIncCarry) (v p : Byte) : Byte × Byte := (v - 1, setZN (v - 1) (putFlag .C (decCarry d v) p))

/-- The four shift and rotate instructions (R195). -/
inductive ShiftKind where
  | asl | lsr | rol | ror
  deriving DecidableEq, Repr

/-- A carry bit as a byte. -/
def carryByte (c : Bool) : Byte := if c then 1 else 0

/-- The result of `Shift(kind, v)` with old Carry `c` (R195): a right shift for all four; ROL puts `c` into
bit 7, ROR into bit 0 as `ROR_INSERT` says. -/
def shiftResult (ins : RorInsert) : ShiftKind → Byte → Bool → Byte
  | .asl, v, _ => v >>> 1
  | .lsr, v, _ => v >>> 1
  | .rol, v, c => (v >>> 1) ||| (carryByte c <<< 7)
  | .ror, v, c =>
    match ins with
    | .or => (v >>> 1) ||| carryByte c
    | .replace => ((v >>> 1) &&& 0xFE) ||| carryByte c

/-- `Shift(kind, v)` of R195: the result and `P`; Carry is the bit shifted out, bit 0 of `v`. -/
def shift8 (ins : RorInsert) (k : ShiftKind) (v p : Byte) : Byte × Byte :=
  let r := shiftResult ins k v (flag .C p)
  (r, setZN r (putFlag .C (v.getLsbD 0) p))

/-- `get_flag(flag)` of R275 for a flag named by its mask; any single-bit mask may be asked for
(DESIGN CHOICE, safe, notes/assumptions/16.md). -/
def getFlag (mask : Byte) (s : State) : Bool := s.p &&& mask != 0

end Sys2Proof.Machine
end

