-- ==== Sys2Proof/Machine/Ops.lean ====
section
/-! DEFINITION. The named operations every meaning is built from: the address-bus router and the register bank
(spec/20_memory.md R50 to R92), the stack (spec/43_stack.md R170 to R178), taking an exception and returning from
one (spec/60_exceptions.md R253 to R260), reset (spec/70_reset_and_hazards.md R290), an unknown opcode
(spec/30_encoding.md R121).

A read has a value (`byteAt`) and an effect (`afterRead`): the value is a function of the state, and the effect
touches only the model's own fields, the draw counter and the diagnostics. -/

namespace Sys2Proof.Machine

/-! ### Words and bytes -/

/-- `zext_16(b)` (R12). -/
def zext16 (b : Byte) : Word := b.setWidth 16

/-- `sext_16(b)`, two's-complement extension of bit 7 (R12). -/
def sext16 (b : Byte) : Word := b.signExtend 16

/-- `w[7:0]`. -/
def loByte (w : Word) : Byte := w.setWidth 8

/-- `w[15:8]`. -/
def hiByte (w : Word) : Byte := (w >>> 8).setWidth 8

/-- `{hi, lo}` (R12): every word of the machine is little-endian (R68). -/
def mkWord (hi lo : Byte) : Word := hi ++ lo

/-! ### The address map -/

/-- The regions of R51. -/
inductive Region where
  | ram | io | rom
  deriving DecidableEq, Repr

/-- The dispatch of R51 and R59: ROM from `0x8000`, the I/O window `0x6000-0x600F` (not mirrored, R53), else RAM. -/
def region (a : Word) : Region :=
  if 0x8000 ≤ a.toNat then .rom
  else if 0x6000 ≤ a.toNat ∧ a.toNat ≤ 0x600F then .io
  else .ram

/-- The framebuffer window, `0x6010-0x7010` inclusive (R51, R54). -/
def inFramebuffer (a : Word) : Bool := decide (0x6010 ≤ a.toNat) && decide (a.toNat ≤ 0x7010)

/-- The slot index of an address in the I/O window, `addr[3:0]` (R53). -/
def slotOf (a : Word) : Nat := a.toNat % 16

/-- The NMI vector (R56). -/
def nmiVector : Word := 0xFFFA

/-- The RESET vector (R56). -/
def resetVector : Word := 0xFFFC

/-- The IRQ/BRK vector (R56). -/
def irqVector : Word := 0xFFFE

/-! ### The register bank -/

/-- The 24-bit cartridge pointer `{REG[7], REG[6], REG[5]}` (R76). -/
def cartPointer (b : IoBank) : BitVec 24 := b.cartHi ++ b.cartMid ++ b.cartLo

/-- The bytes a draw may be, by `RNG_RANGE` (R11): a free byte, kept out of 255 by the alternative value. -/
def drawIn : RngRange → Byte → Byte
  | .full, v => v
  | .below255, v => if v = 0xFF then 0 else v

/-- `draw8()` (R12, R79): the free value number `n`. -/
def drawByte (r : RngRange) (n : Nat) : Byte := drawIn r (Config.randomByte n)

/-- The value of `RegRead(i)` (R70). -/
def regRead (i : Nat) (s : State) : Byte :=
  match i with
  | 0 => s.bank.portB
  | 1 => s.bank.portA
  | 2 => s.bank.keyboard
  | 3 => s.bank.mouseX
  | 4 => s.bank.mouseY
  | 5 => s.bank.cartLo
  | 6 => s.bank.cartMid
  | 7 => s.bank.cartHi
  | 8 => s.cart.read (cartPointer s.bank).toNat
  | 9 => drawByte s.config.rngRange s.draws
  | 15 => s.bank.interruptId
  | _ => 0

/-- A diagnostic (R13): recorded, read by nothing. -/
def logDiag (d : Diagnostic) (s : State) : State := s.setDiag (d :: s.diag)

/-- The effect of `RegRead(i)` (R70): slot 9 consumes a draw (R79), slots 10 to 14 log (R81). -/
def afterRegRead (i : Nat) (s : State) : State :=
  match i with
  | 9 => s.setDraws (s.draws + 1)
  | 10 | 11 | 12 | 13 | 14 => logDiag (.invalidRegister i) s
  | _ => s

/-- `RegWrite(i, v)` (R70). A write to slot 8 is Fatal and stores nothing (R78). -/
def regWrite (i : Nat) (v : Byte) (s : State) : State :=
  match i with
  | 0 => s.setBank { s.bank with portB := v }
  | 1 => s.setBank { s.bank with portA := v }
  | 2 => s.setBank { s.bank with keyboard := v }
  | 3 => s.setBank { s.bank with mouseX := v }
  | 4 => s.setBank { s.bank with mouseY := v }
  | 5 => s.setBank { s.bank with cartLo := v }
  | 6 => s.setBank { s.bank with cartMid := v }
  | 7 => s.setBank { s.bank with cartHi := v }
  | 8 => s.setFatal true
  | 9 => logDiag .rngWrite s
  | 15 => s.setBank { s.bank with interruptId := v }
  | _ => logDiag (.invalidRegister i) s

/-! ### The router -/

/-- The value of `MemRead(addr, 1)` (R59). -/
def byteAt (s : State) (a : Word) : Byte :=
  match region a with
  | .rom => s.rom.read (a.toNat - 0x8000)
  | .io => regRead (slotOf a) s
  | .ram => s.ram.read a.toNat

/-- The effect of `MemRead(addr, 1)`: that of the register bank, none elsewhere (R85). -/
def afterRead (a : Word) (s : State) : State :=
  match region a with
  | .io => afterRegRead (slotOf a) s
  | _ => s

/-- `MemRead(addr, 1)` (R59). -/
def readByte (a : Word) (s : State) : Byte × State := (byteAt s a, afterRead a s)

/-- Two byte reads, the low byte of the word first (R61, decision D21). -/
def readPair (lo hi : Word) (s : State) : Word × State :=
  let t := afterRead lo s
  (mkWord (byteAt t hi) (byteAt s lo), afterRead hi t)

/-- `MemRead(addr, 2)` (R61): the high byte at `addr +16 1`, which wraps (R64), each byte routed by its own
address (R63, R65, R83). -/
def readWord (a : Word) (s : State) : Word × State := readPair a (a + 1) s

/-- The word the renderer's `read_word` gives (R66) and the value of a word read that draws nothing. -/
def wordAt (s : State) (a : Word) : Word := mkWord (byteAt s (a + 1)) (byteAt s a)

/-- `MemWrite(addr, 1, v)` (R60). -/
def writeByte (a : Word) (v : Byte) (s : State) : State :=
  match region a with
  | .rom => logDiag (.romWrite a) s
  | .io => regWrite (slotOf a) v s
  | .ram =>
    let t := s.setRam (s.ram.write a.toNat v)
    if inFramebuffer a then t.setDirty true else t

/-- `MemWrite(addr, 2, w)` (R62): low byte first; a Fatal first write ends it. No instruction uses it. -/
def writeWord (a w : Word) (s : State) : State :=
  let t := writeByte a (loByte w) s
  if t.fatal then t else writeByte (a + 1) (hiByte w) t

/-! ### The stack -/

/-- The address of the stack slot a byte names, `0x0100 + SP` (R22). -/
def stackAddr (sp : Byte) : Word := 0x0100 + zext16 sp

/-- The slot a push writes when `SP` is `sp`, by `STACK_DISCIPLINE` (R11, R170). -/
def pushSlot : StackDiscipline → Byte → Byte
  | .predecPostinc, sp => sp - 1
  | .postdecPreinc, sp => sp

/-- The slot a pop reads when `SP` is `sp`, by `STACK_DISCIPLINE` (R11, R171). -/
def popSlot : StackDiscipline → Byte → Byte
  | .predecPostinc, sp => sp
  | .postdecPreinc, sp => sp + 1

/-- `Push8(v)` (R170); `SP` wraps silently (R178). -/
def push8 (v : Byte) (s : State) : State :=
  writeByte (stackAddr (pushSlot s.config.stackDiscipline s.sp)) v (s.setSp (s.sp - 1))

/-- `Pop8()` (R171). The stack page is RAM, so the read has no effect. -/
def pop8 (s : State) : Byte × State :=
  (byteAt s (stackAddr (popSlot s.config.stackDiscipline s.sp)), s.setSp (s.sp + 1))

/-- `Push16(w)` (R172): the high byte first. -/
def push16 (w : Word) (s : State) : State := push8 (loByte w) (push8 (hiByte w) s)

/-- `Pop16()` (R172). -/
def pop16 (s : State) : Word × State :=
  let lo := pop8 s
  let hi := pop8 lo.2
  (mkWord hi.1 lo.1, hi.2)

/-- `PushP()` (R173): `P` itself is not changed. -/
def pushP (s : State) : State := push8 (forcedOnPush s.config.forceMask s.p) s

/-- `PopP()` (R173). -/
def popP (s : State) : State :=
  let q := pop8 s
  q.2.setP (restoredOnPop s.config.forceMask q.1)

/-! ### Exceptions -/

/-- Taking an exception (R253 to R255, R259): push the return address, push the flags with the forced bits,
load `PC` from the vector, then set the flags of `set` in `P`. IRQ, NMI and BRK differ only in the arguments. -/
def takeException (ret vector : Word) (set : Byte) (s : State) : State :=
  let t := pushP (push16 ret s)
  let q := readWord vector t
  (q.2.setPc q.1).setP (q.2.p ||| set)

/-- Returning from one (R260, R238): `PopP(); PC <- Pop16()`, with no `+1`. -/
def returnFromException (s : State) : State :=
  let q := pop16 (popP s)
  q.2.setPc q.1

/-- `interrupt_request()` (R253): masked by `P.I`, and a masked request is dropped (R257). -/
def interruptRequest (s : State) : State :=
  if flag .I s.p then s else takeException s.pc irqVector (flagMask .I) s

/-- `non_maskable_interrupt()` (R254): unconditional, and no flag changes. -/
def nonMaskableInterrupt (s : State) : State := takeException s.pc nmiVector 0 s

/-- `reset()` (R290): the six CPU registers and nothing else (R291). -/
def resetCpu (s : State) : State :=
  let t := ((((s.setA 0x00).setX 0x00).setY 0x00).setSp 0xFF).setP 0x34
  let q := readWord resetVector t
  q.2.setPc q.1

/-- An unknown opcode (R121, R261): one diagnostic, nothing else; `PC` is already past the byte. -/
def unknownOpcode (op : Byte) (s : State) : State := logDiag (.unknownOpcode op) s

/-- The host's actions other than `tick()` (R276). The field writes go to the slot directly, not through the
router (R273). -/
def hostEffect (e : HostEvent) (s : State) : State :=
  match e with
  | .reset => resetCpu s
  | .interruptRequest => interruptRequest s
  | .nonMaskableInterrupt => nonMaskableInterrupt s
  | .writeKeyboard v => s.setBank { s.bank with keyboard := v }
  | .writeMouseX v => s.setBank { s.bank with mouseX := v }
  | .writeMouseY v => s.setBank { s.bank with mouseY := v }
  | .writeInterruptId v => s.setBank { s.bank with interruptId := v }
  | .clearDirty => s.setDirty false

end Sys2Proof.Machine
end

