-- ==== Sys2Proof/Machine/Operands.lean ====
section
/-! DEFINITION. Fetching (spec/30_encoding.md R102 to R104), the thirteen addressing modes (R105 to R118) and the
operand access helpers (R119).

A meaning runs when every byte of its instruction has been fetched, with `PC` at the next instruction: "all
operand-byte fetches, then pointer reads, then the data read" (R102). So a mode takes its operand byte or word
as an argument here (DESIGN CHOICE, safe, notes/assumptions/10.md). -/

namespace Sys2Proof.Machine

/-! ### Fetching -/

/-- `Fetch8()` (R104): an ordinary routed read, from any region (decision D34). -/
def fetch8 (s : State) : Byte × State := (byteAt s s.pc, (afterRead s.pc s).setPc (s.pc + 1))

/-- `Fetch16()` (R104). -/
def fetch16 (s : State) : Word × State :=
  let lo := fetch8 s
  let hi := fetch8 lo.2
  (mkWord hi.1 lo.1, hi.2)

/-! ### Modes with an effective address -/

/-- The modes that name a byte of the address space, with their operand. -/
inductive MemOperand where
  | zp (b : Byte)
  | zpx (b : Byte)
  | zpy (b : Byte)
  | abs (w : Word)
  | abx (w : Word)
  | aby (w : Word)
  | izx (b : Byte)
  | izy (b : Byte)
  deriving DecidableEq, Repr

/-- The address of the high byte of the zero-page pointer at `zp`, by `ZP_PTR_WRAP` (R11, R116, decision D7). -/
def zpPointerHigh (wrap : Bool) (zp : Byte) : Word :=
  if wrap then zext16 (zp + 1) else zext16 zp + 1

/-- The word a zero-page pointer holds (R116, R117). Both its bytes are in `0x0000-0x0100`, RAM, so reading them
has no effect (R85). -/
def zpPointer (s : State) (zp : Byte) : Word :=
  mkWord (byteAt s (zpPointerHigh s.config.zpPtrWrap zp)) (byteAt s (zext16 zp))

/-- `EA(mode)`: zero-page indexing wraps in the page (R109 to R111), the 16-bit sums at 65536 (R112 to R117). -/
def effAddr (m : MemOperand) (s : State) : Word :=
  match m with
  | .zp b => zext16 b
  | .zpx b => zext16 (b + s.x)
  | .zpy b => zext16 (b + s.y)
  | .abs w => w
  | .abx w => w + zext16 s.x
  | .aby w => w + zext16 s.y
  | .izx b => zpPointer s (b + s.x)
  | .izy b => zpPointer s b + zext16 s.y

/-! ### Operand access (R119) -/

/-- What a read instruction reads: an immediate byte (R108) or a byte of memory. -/
inductive Source where
  | imm (v : Byte)
  | mem (m : MemOperand)
  deriving DecidableEq, Repr

/-- Where a shift or rotate works: the accumulator (R107) or a byte of memory. -/
inductive Place where
  | acc
  | mem (m : MemOperand)
  deriving DecidableEq, Repr

/-- `LoadOperand(mode)` (R119): the byte, and the state after the read. -/
def loadOperand (m : Source) (s : State) : Byte × State :=
  match m with
  | .imm v => (v, s)
  | .mem m => readByte (effAddr m s) s

/-- `StoreTo(mode, v)` (R119): the target is not read first. -/
def storeTo (m : MemOperand) (v : Byte) (s : State) : State := writeByte (effAddr m s) v s

/-- `Modify(mode, f)` of R119 on memory: one read, the flags, one write, at one address computed once (R119,
decision D22). `f` gives the result and the new flags byte from the value and the old one. -/
def modifyMem (m : MemOperand) (f : Byte → Byte → Byte × Byte) (s : State) : State :=
  let ea := effAddr m s
  let q := readByte ea s
  let r := f q.1 q.2.p
  writeByte ea r.1 (q.2.setP r.2)

/-- `Modify(mode, f)` of R119. -/
def modify (m : Place) (f : Byte → Byte → Byte × Byte) (s : State) : State :=
  match m with
  | .acc => (s.setA (f s.a s.p).1).setP (f s.a s.p).2
  | .mem m => modifyMem m f s

/-! ### Jump and branch targets -/

/-- The target of a relative branch (R118): `PC` is past the operand byte. -/
def branchTarget (off : Byte) (s : State) : Word := s.pc + sext16 off

/-- The address of the high byte of a JMP pointer, by `JMP_IND_PAGE_BUG` (R11, R115, decision D8). -/
def jmpPointerHigh (bug : Bool) (ptr : Word) : Word :=
  if bug then mkWord (hiByte ptr) (loByte ptr + 1) else ptr + 1

/-- The word at a JMP pointer (R115): an ordinary word read, which may fall in the I/O window (R83). -/
def readJmpPointer (ptr : Word) (s : State) : Word × State :=
  readPair ptr (jmpPointerHigh s.config.jmpIndPageBug ptr) s

end Sys2Proof.Machine
end

