-- ==== Sys2Proof/Machine/Branch.lean ====
section
/-! DEFINITION. Conditional branches (spec/47_branch.md R210 to R218). -/

namespace Sys2Proof.Machine

/-- `Branch(cond)` (R210): the operand byte has been fetched either way. -/
def branch (cond : Bool) (off : Byte) (s : State) : State := if cond then s.setPc (branchTarget off s) else s

/-- BPL `10` (R211, R118). -/
def execBpl (off : Byte) (s : State) : Result := .next (branch (!flag .N s.p) off s)

/-- BMI `30` (R212, R118). -/
def execBmi (off : Byte) (s : State) : Result := .next (branch (flag .N s.p) off s)

/-- BVC `50` (R213, R118). -/
def execBvc (off : Byte) (s : State) : Result := .next (branch (!flag .V s.p) off s)

/-- BVS `70` (R214, R118). -/
def execBvs (off : Byte) (s : State) : Result := .next (branch (flag .V s.p) off s)

/-- BCC `90` (R215, R118). -/
def execBcc (off : Byte) (s : State) : Result := .next (branch (!flag .C s.p) off s)

/-- BCS `B0` (R216, R118). -/
def execBcs (off : Byte) (s : State) : Result := .next (branch (flag .C s.p) off s)

/-- BNE `D0` (R217, R118). -/
def execBne (off : Byte) (s : State) : Result := .next (branch (!flag .Z s.p) off s)

/-- BEQ `F0` (R218, R118). -/
def execBeq (off : Byte) (s : State) : Result := .next (branch (flag .Z s.p) off s)

end Sys2Proof.Machine
end

