-- ==== Sys2Proof/Machine/Compare.lean ====
section
/-! DEFINITION. Compares (spec/46_compare.md R205 to R208). They write flags only. -/

namespace Sys2Proof.Machine

/-- CMP (R206). -/
def cmp (m : Source) (s : State) : State :=
  let q := loadOperand m s
  q.2.setP (compareFlags q.2.a q.1 q.2.p)

/-- CPX (R207). -/
def cpx (m : Source) (s : State) : State :=
  let q := loadOperand m s
  q.2.setP (compareFlags q.2.x q.1 q.2.p)

/-- CPY (R208). -/
def cpy (m : Source) (s : State) : State :=
  let q := loadOperand m s
  q.2.setP (compareFlags q.2.y q.1 q.2.p)

/-- CMP IMM `C9` (R206, R108). -/
def execCmpImm (v : Byte) (s : State) : Result := .next (cmp (.imm v) s)

/-- CMP ZP `C5` (R206, R109). -/
def execCmpZp (zp : Byte) (s : State) : Result := .next (cmp (.mem (.zp zp)) s)

/-- CMP ZPX `D5` (R206, R110). -/
def execCmpZpx (zp : Byte) (s : State) : Result := .next (cmp (.mem (.zpx zp)) s)

/-- CMP ABS `CD` (R206, R112). -/
def execCmpAbs (addr : Word) (s : State) : Result := .next (cmp (.mem (.abs addr)) s)

/-- CMP ABX `DD` (R206, R113). -/
def execCmpAbx (addr : Word) (s : State) : Result := .next (cmp (.mem (.abx addr)) s)

/-- CMP ABY `D9` (R206, R114). -/
def execCmpAby (addr : Word) (s : State) : Result := .next (cmp (.mem (.aby addr)) s)

/-- CMP IZX `C1` (R206, R116). -/
def execCmpIzx (zp : Byte) (s : State) : Result := .next (cmp (.mem (.izx zp)) s)

/-- CMP IZY `D1` (R206, R117). -/
def execCmpIzy (zp : Byte) (s : State) : Result := .next (cmp (.mem (.izy zp)) s)

/-- CPX IMM `E0` (R207, R108). -/
def execCpxImm (v : Byte) (s : State) : Result := .next (cpx (.imm v) s)

/-- CPX ZP `E4` (R207, R109). -/
def execCpxZp (zp : Byte) (s : State) : Result := .next (cpx (.mem (.zp zp)) s)

/-- CPX ABS `EC` (R207, R112). -/
def execCpxAbs (addr : Word) (s : State) : Result := .next (cpx (.mem (.abs addr)) s)

/-- CPY IMM `C0` (R208, R108). -/
def execCpyImm (v : Byte) (s : State) : Result := .next (cpy (.imm v) s)

/-- CPY ZP `C4` (R208, R109). -/
def execCpyZp (zp : Byte) (s : State) : Result := .next (cpy (.mem (.zp zp)) s)

/-- CPY ABS `CC` (R208, R112). -/
def execCpyAbs (addr : Word) (s : State) : Result := .next (cpy (.mem (.abs addr)) s)

end Sys2Proof.Machine
end

