-- ==== Sys2Proof/Machine/FlagsSystem.lean ====
section
/-! DEFINITION. Flag instructions, BRK, RTI, NOP (spec/49_flags_brk_rti.md R230 to R239). -/

namespace Sys2Proof.Machine

/-- `P.f <- b` as a whole instruction (R230 to R236). -/
def writeFlag (f : Flag) (b : Bool) (s : State) : State := s.setP (putFlag f b s.p)

/-- CLC `18` (R230, R106). -/
def execClc (s : State) : Result := .next (writeFlag .C false s)

/-- SEC `38` (R231, R106). -/
def execSec (s : State) : Result := .next (writeFlag .C true s)

/-- CLI `58` (R232, R106). -/
def execCli (s : State) : Result := .next (writeFlag .I false s)

/-- SEI `78` (R233, R106). -/
def execSei (s : State) : Result := .next (writeFlag .I true s)

/-- CLV `B8` (R234, R106). -/
def execClv (s : State) : Result := .next (writeFlag .V false s)

/-- CLD `D8` (R235, R106). -/
def execCld (s : State) : Result := .next (writeFlag .D false s)

/-- SED `F8` (R236, R106). -/
def execSed (s : State) : Result := .next (writeFlag .D true s)

/-- BRK `00` (R237, R106): masked by `P.I` (decision D10); taken, it returns past the padding byte and sets I and B
after the push. -/
def execBrk (s : State) : Result :=
  .next (if flag .I s.p then s else takeException (s.pc + 1) irqVector (flagMask .I ||| flagMask .B) s)

/-- RTI `40` (R238, R106): no `+1`. -/
def execRti (s : State) : Result := .next (returnFromException s)

/-- NOP `EA` (R239, R106): nothing but the fetch. -/
def execNop (s : State) : Result := .next s

end Sys2Proof.Machine
end

