-- ==== Sys2Proof/Machine/LoadStore.lean ====
section
/-! DEFINITION. Loads and stores (spec/40_load_store.md R140 to R145). -/

namespace Sys2Proof.Machine

/-- A byte into `A` with `SetZN` (R140). -/
def loadA (v : Byte) (s : State) : State := (s.setA v).setP (setZN v s.p)

/-- A byte into `X` with `SetZN` (R141). -/
def loadX (v : Byte) (s : State) : State := (s.setX v).setP (setZN v s.p)

/-- A byte into `Y` with `SetZN` (R142). -/
def loadY (v : Byte) (s : State) : State := (s.setY v).setP (setZN v s.p)

/-- LDA (R140). -/
def lda (m : Source) (s : State) : State := loadA (loadOperand m s).1 (loadOperand m s).2

/-- LDX (R141). -/
def ldx (m : Source) (s : State) : State := loadX (loadOperand m s).1 (loadOperand m s).2

/-- LDY (R142). -/
def ldy (m : Source) (s : State) : State := loadY (loadOperand m s).1 (loadOperand m s).2

/-- STA (R143): no flag. -/
def sta (m : MemOperand) (s : State) : State := storeTo m s.a s

/-- STX (R144): no flag. -/
def stx (m : MemOperand) (s : State) : State := storeTo m s.x s

/-- STY (R145): no flag. -/
def sty (m : MemOperand) (s : State) : State := storeTo m s.y s

/-- LDA IMM `A9` (R140, R108). -/
def execLdaImm (v : Byte) (s : State) : Result := .next (lda (.imm v) s)

/-- LDA ZP `A5` (R140, R109). -/
def execLdaZp (zp : Byte) (s : State) : Result := .next (lda (.mem (.zp zp)) s)

/-- LDA ZPX `B5` (R140, R110). -/
def execLdaZpx (zp : Byte) (s : State) : Result := .next (lda (.mem (.zpx zp)) s)

/-- LDA ABS `AD` (R140, R112). -/
def execLdaAbs (addr : Word) (s : State) : Result := .next (lda (.mem (.abs addr)) s)

/-- LDA ABX `BD` (R140, R113). -/
def execLdaAbx (addr : Word) (s : State) : Result := .next (lda (.mem (.abx addr)) s)

/-- LDA ABY `B9` (R140, R114). -/
def execLdaAby (addr : Word) (s : State) : Result := .next (lda (.mem (.aby addr)) s)

/-- LDA IZX `A1` (R140, R116). -/
def execLdaIzx (zp : Byte) (s : State) : Result := .next (lda (.mem (.izx zp)) s)

/-- LDA IZY `B1` (R140, R117). -/
def execLdaIzy (zp : Byte) (s : State) : Result := .next (lda (.mem (.izy zp)) s)

/-- LDX IMM `A2` (R141, R108). -/
def execLdxImm (v : Byte) (s : State) : Result := .next (ldx (.imm v) s)

/-- LDX ZP `A6` (R141, R109). -/
def execLdxZp (zp : Byte) (s : State) : Result := .next (ldx (.mem (.zp zp)) s)

/-- LDX ZPY `B6` (R141, R111). -/
def execLdxZpy (zp : Byte) (s : State) : Result := .next (ldx (.mem (.zpy zp)) s)

/-- LDX ABS `AE` (R141, R112). -/
def execLdxAbs (addr : Word) (s : State) : Result := .next (ldx (.mem (.abs addr)) s)

/-- LDX ABY `BE` (R141, R114). -/
def execLdxAby (addr : Word) (s : State) : Result := .next (ldx (.mem (.aby addr)) s)

/-- LDY IMM `A0` (R142, R108). -/
def execLdyImm (v : Byte) (s : State) : Result := .next (ldy (.imm v) s)

/-- LDY ZP `A4` (R142, R109). -/
def execLdyZp (zp : Byte) (s : State) : Result := .next (ldy (.mem (.zp zp)) s)

/-- LDY ZPX `B4` (R142, R110). -/
def execLdyZpx (zp : Byte) (s : State) : Result := .next (ldy (.mem (.zpx zp)) s)

/-- LDY ABS `AC` (R142, R112). -/
def execLdyAbs (addr : Word) (s : State) : Result := .next (ldy (.mem (.abs addr)) s)

/-- LDY ABX `BC` (R142, R113). -/
def execLdyAbx (addr : Word) (s : State) : Result := .next (ldy (.mem (.abx addr)) s)

/-- STA ZP `85` (R143, R109). -/
def execStaZp (zp : Byte) (s : State) : Result := .next (sta (.zp zp) s)

/-- STA ZPX `95` (R143, R110). -/
def execStaZpx (zp : Byte) (s : State) : Result := .next (sta (.zpx zp) s)

/-- STA ABS `8D` (R143, R112). -/
def execStaAbs (addr : Word) (s : State) : Result := .next (sta (.abs addr) s)

/-- STA ABX `9D` (R143, R113). -/
def execStaAbx (addr : Word) (s : State) : Result := .next (sta (.abx addr) s)

/-- STA ABY `99` (R143, R114). -/
def execStaAby (addr : Word) (s : State) : Result := .next (sta (.aby addr) s)

/-- STA IZX `81` (R143, R116). -/
def execStaIzx (zp : Byte) (s : State) : Result := .next (sta (.izx zp) s)

/-- STA IZY `91` (R143, R117). -/
def execStaIzy (zp : Byte) (s : State) : Result := .next (sta (.izy zp) s)

/-- STX ZP `86` (R144, R109). -/
def execStxZp (zp : Byte) (s : State) : Result := .next (stx (.zp zp) s)

/-- STX ZPY `96` (R144, R111). -/
def execStxZpy (zp : Byte) (s : State) : Result := .next (stx (.zpy zp) s)

/-- STX ABS `8E` (R144, R112). -/
def execStxAbs (addr : Word) (s : State) : Result := .next (stx (.abs addr) s)

/-- STY ZP `84` (R145, R109). -/
def execStyZp (zp : Byte) (s : State) : Result := .next (sty (.zp zp) s)

/-- STY ZPX `94` (R145, R110). -/
def execStyZpx (zp : Byte) (s : State) : Result := .next (sty (.zpx zp) s)

/-- STY ABS `8C` (R145, R112). -/
def execStyAbs (addr : Word) (s : State) : Result := .next (sty (.abs addr) s)

end Sys2Proof.Machine
end

