-- ==== Sys2Proof/Machine/IncDec.lean ====
section
/-! DEFINITION. Increments and decrements (spec/42_incdec.md R160 to R166). All of them write Carry. -/

namespace Sys2Proof.Machine

/-- INC (R161): no accumulator form. -/
def incMem (m : MemOperand) (s : State) : State := modifyMem m inc8 s

/-- DEC (R162). -/
def decMem (m : MemOperand) (s : State) : State := modifyMem m (dec8 s.config.decIncCarry) s

/-- INC ZP `E6` (R161, R109). -/
def execIncZp (zp : Byte) (s : State) : Result := .next (incMem (.zp zp) s)

/-- INC ZPX `F6` (R161, R110). -/
def execIncZpx (zp : Byte) (s : State) : Result := .next (incMem (.zpx zp) s)

/-- INC ABS `EE` (R161, R112). -/
def execIncAbs (addr : Word) (s : State) : Result := .next (incMem (.abs addr) s)

/-- INC ABX `FE` (R161, R113). -/
def execIncAbx (addr : Word) (s : State) : Result := .next (incMem (.abx addr) s)

/-- DEC ZP `C6` (R162, R109). -/
def execDecZp (zp : Byte) (s : State) : Result := .next (decMem (.zp zp) s)

/-- DEC ZPX `D6` (R162, R110). -/
def execDecZpx (zp : Byte) (s : State) : Result := .next (decMem (.zpx zp) s)

/-- DEC ABS `CE` (R162, R112). -/
def execDecAbs (addr : Word) (s : State) : Result := .next (decMem (.abs addr) s)

/-- DEC ABX `DE` (R162, R113). -/
def execDecAbx (addr : Word) (s : State) : Result := .next (decMem (.abx addr) s)

/-- INX `E8` (R163, R106). -/
def execInx (s : State) : Result := .next ((s.setX (inc8 s.x s.p).1).setP (inc8 s.x s.p).2)

/-- INY `C8` (R164, R106). -/
def execIny (s : State) : Result := .next ((s.setY (inc8 s.y s.p).1).setP (inc8 s.y s.p).2)

/-- DEX `CA` (R165, R106). -/
def execDex (s : State) : Result :=
  .next ((s.setX (dec8 s.config.decIncCarry s.x s.p).1).setP (dec8 s.config.decIncCarry s.x s.p).2)

/-- DEY `88` (R166, R106). -/
def execDey (s : State) : Result :=
  .next ((s.setY (dec8 s.config.decIncCarry s.y s.p).1).setP (dec8 s.config.decIncCarry s.y s.p).2)

end Sys2Proof.Machine
end

