-- ==== Sys2Proof/Machine/JumpCall.lean ====
section
/-! DEFINITION. Jumps and subroutine calls (spec/48_jump_call.md R220 to R222). -/

namespace Sys2Proof.Machine

/-- JMP ABS `4C` (R220, R112). -/
def execJmpAbs (addr : Word) (s : State) : Result := .next (s.setPc addr)

/-- JMP IND `6C` (R220, R115). -/
def execJmpInd (ptr : Word) (s : State) : Result :=
  .next ((readJmpPointer ptr s).2.setPc (readJmpPointer ptr s).1)

/-- JSR `20` (R221, R112): pushes the address of its own last byte (decision D9). -/
def execJsr (addr : Word) (s : State) : Result := .next ((push16 (s.pc - 1) s).setPc addr)

/-- RTS `60` (R222, R106): the popped word plus one (decision D9). -/
def execRts (s : State) : Result := .next ((pop16 s).2.setPc ((pop16 s).1 + 1))

end Sys2Proof.Machine
end

