-- ==== Sys2Proof/Machine/LogicArith.lean ====
section
/-! DEFINITION. Logic and arithmetic (spec/44_logic_arith.md R180 to R190). -/

namespace Sys2Proof.Machine

/-- AND (R181). -/
def andA (m : Source) (s : State) : State :=
  let q := loadOperand m s
  loadA (q.2.a &&& q.1) q.2

/-- ORA (R182). -/
def oraA (m : Source) (s : State) : State :=
  let q := loadOperand m s
  loadA (q.2.a ||| q.1) q.2

/-- EOR (R183). -/
def eorA (m : Source) (s : State) : State :=
  let q := loadOperand m s
  loadA (q.2.a ^^^ q.1) q.2

/-- BIT (R184): flags only. -/
def bitTest (m : MemOperand) (s : State) : State :=
  let q := loadOperand (.mem m) s
  q.2.setP (bitFlags q.2.a q.1 q.2.p)

/-- `AddWithCarry(m)` (R185). -/
def addWithCarry (m : Byte) (s : State) : State :=
  (s.setA (adcResult s.a m (flag .C s.p))).setP (adcFlags s.a m s.p)

/-- ADC (R186). -/
def adc (m : Source) (s : State) : State := addWithCarry (loadOperand m s).1 (loadOperand m s).2

/-- SBC (R187): ADC of the operand's one's complement. -/
def sbc (m : Source) (s : State) : State := addWithCarry (~~~(loadOperand m s).1) (loadOperand m s).2

/-- AND IMM `29` (R181, R108). -/
def execAndImm (v : Byte) (s : State) : Result := .next (andA (.imm v) s)

/-- AND ZP `25` (R181, R109). -/
def execAndZp (zp : Byte) (s : State) : Result := .next (andA (.mem (.zp zp)) s)

/-- AND ZPX `35` (R181, R110). -/
def execAndZpx (zp : Byte) (s : State) : Result := .next (andA (.mem (.zpx zp)) s)

/-- AND ABS `2D` (R181, R112). -/
def execAndAbs (addr : Word) (s : State) : Result := .next (andA (.mem (.abs addr)) s)

/-- AND ABX `3D` (R181, R113). -/
def execAndAbx (addr : Word) (s : State) : Result := .next (andA (.mem (.abx addr)) s)

/-- AND ABY `39` (R181, R114). -/
def execAndAby (addr : Word) (s : State) : Result := .next (andA (.mem (.aby addr)) s)

/-- AND IZX `21` (R181, R116). -/
def execAndIzx (zp : Byte) (s : State) : Result := .next (andA (.mem (.izx zp)) s)

/-- AND IZY `31` (R181, R117). -/
def execAndIzy (zp : Byte) (s : State) : Result := .next (andA (.mem (.izy zp)) s)

/-- ORA IMM `09` (R182, R108). -/
def execOraImm (v : Byte) (s : State) : Result := .next (oraA (.imm v) s)

/-- ORA ZP `05` (R182, R109). -/
def execOraZp (zp : Byte) (s : State) : Result := .next (oraA (.mem (.zp zp)) s)

/-- ORA ZPX `15` (R182, R110). -/
def execOraZpx (zp : Byte) (s : State) : Result := .next (oraA (.mem (.zpx zp)) s)

/-- ORA ABS `0D` (R182, R112). -/
def execOraAbs (addr : Word) (s : State) : Result := .next (oraA (.mem (.abs addr)) s)

/-- ORA ABX `1D` (R182, R113). -/
def execOraAbx (addr : Word) (s : State) : Result := .next (oraA (.mem (.abx addr)) s)

/-- ORA ABY `19` (R182, R114). -/
def execOraAby (addr : Word) (s : State) : Result := .next (oraA (.mem (.aby addr)) s)

/-- ORA IZX `01` (R182, R116). -/
def execOraIzx (zp : Byte) (s : State) : Result := .next (oraA (.mem (.izx zp)) s)

/-- ORA IZY `11` (R182, R117). -/
def execOraIzy (zp : Byte) (s : State) : Result := .next (oraA (.mem (.izy zp)) s)

/-- EOR IMM `49` (R183, R108). -/
def execEorImm (v : Byte) (s : State) : Result := .next (eorA (.imm v) s)

/-- EOR ZP `45` (R183, R109). -/
def execEorZp (zp : Byte) (s : State) : Result := .next (eorA (.mem (.zp zp)) s)

/-- EOR ZPX `55` (R183, R110). -/
def execEorZpx (zp : Byte) (s : State) : Result := .next (eorA (.mem (.zpx zp)) s)

/-- EOR ABS `4D` (R183, R112). -/
def execEorAbs (addr : Word) (s : State) : Result := .next (eorA (.mem (.abs addr)) s)

/-- EOR ABX `5D` (R183, R113). -/
def execEorAbx (addr : Word) (s : State) : Result := .next (eorA (.mem (.abx addr)) s)

/-- EOR ABY `59` (R183, R114). -/
def execEorAby (addr : Word) (s : State) : Result := .next (eorA (.mem (.aby addr)) s)

/-- EOR IZX `41` (R183, R116). -/
def execEorIzx (zp : Byte) (s : State) : Result := .next (eorA (.mem (.izx zp)) s)

/-- EOR IZY `51` (R183, R117). -/
def execEorIzy (zp : Byte) (s : State) : Result := .next (eorA (.mem (.izy zp)) s)

/-- BIT ZP `24` (R184, R109). -/
def execBitZp (zp : Byte) (s : State) : Result := .next (bitTest (.zp zp) s)

/-- BIT ABS `2C` (R184, R112). -/
def execBitAbs (addr : Word) (s : State) : Result := .next (bitTest (.abs addr) s)

/-- ADC IMM `69` (R186, R108). -/
def execAdcImm (v : Byte) (s : State) : Result := .next (adc (.imm v) s)

/-- ADC ZP `65` (R186, R109). -/
def execAdcZp (zp : Byte) (s : State) : Result := .next (adc (.mem (.zp zp)) s)

/-- ADC ZPX `75` (R186, R110). -/
def execAdcZpx (zp : Byte) (s : State) : Result := .next (adc (.mem (.zpx zp)) s)

/-- ADC ABS `6D` (R186, R112). -/
def execAdcAbs (addr : Word) (s : State) : Result := .next (adc (.mem (.abs addr)) s)

/-- ADC ABX `7D` (R186, R113). -/
def execAdcAbx (addr : Word) (s : State) : Result := .next (adc (.mem (.abx addr)) s)

/-- ADC ABY `79` (R186, R114). -/
def execAdcAby (addr : Word) (s : State) : Result := .next (adc (.mem (.aby addr)) s)

/-- ADC IZX `61` (R186, R116). -/
def execAdcIzx (zp : Byte) (s : State) : Result := .next (adc (.mem (.izx zp)) s)

/-- ADC IZY `71` (R186, R117). -/
def execAdcIzy (zp : Byte) (s : State) : Result := .next (adc (.mem (.izy zp)) s)

/-- SBC IMM `E9` (R187, R108). -/
def execSbcImm (v : Byte) (s : State) : Result := .next (sbc (.imm v) s)

/-- SBC ZP `E5` (R187, R109). -/
def execSbcZp (zp : Byte) (s : State) : Result := .next (sbc (.mem (.zp zp)) s)

/-- SBC ZPX `F5` (R187, R110). -/
def execSbcZpx (zp : Byte) (s : State) : Result := .next (sbc (.mem (.zpx zp)) s)

/-- SBC ABS `ED` (R187, R112). -/
def execSbcAbs (addr : Word) (s : State) : Result := .next (sbc (.mem (.abs addr)) s)

/-- SBC ABX `FD` (R187, R113). -/
def execSbcAbx (addr : Word) (s : State) : Result := .next (sbc (.mem (.abx addr)) s)

/-- SBC ABY `F9` (R187, R114). -/
def execSbcAby (addr : Word) (s : State) : Result := .next (sbc (.mem (.aby addr)) s)

/-- SBC IZX `E1` (R187, R116). -/
def execSbcIzx (zp : Byte) (s : State) : Result := .next (sbc (.mem (.izx zp)) s)

/-- SBC IZY `F1` (R187, R117). -/
def execSbcIzy (zp : Byte) (s : State) : Result := .next (sbc (.mem (.izy zp)) s)

end Sys2Proof.Machine
end

