-- ==== Sys2Proof/Machine/ShiftRotate.lean ====
section
/-! DEFINITION. Shifts and rotates, all four to the right (spec/45_shift_rotate.md R195 to R199). -/

namespace Sys2Proof.Machine

/-- One of the four on its operand (R195). -/
def shift (k : ShiftKind) (m : Place) (s : State) : State := modify m (shift8 s.config.rorInsert k) s

/-- ASL ACC `0A` (R196, R107). -/
def execAslAcc (s : State) : Result := .next (shift .asl .acc s)

/-- ASL ZP `06` (R196, R109). -/
def execAslZp (zp : Byte) (s : State) : Result := .next (shift .asl (.mem (.zp zp)) s)

/-- ASL ZPX `16` (R196, R110). -/
def execAslZpx (zp : Byte) (s : State) : Result := .next (shift .asl (.mem (.zpx zp)) s)

/-- ASL ABS `0E` (R196, R112). -/
def execAslAbs (addr : Word) (s : State) : Result := .next (shift .asl (.mem (.abs addr)) s)

/-- ASL ABX `1E` (R196, R113). -/
def execAslAbx (addr : Word) (s : State) : Result := .next (shift .asl (.mem (.abx addr)) s)

/-- LSR ACC `4A` (R197, R107). -/
def execLsrAcc (s : State) : Result := .next (shift .lsr .acc s)

/-- LSR ZP `46` (R197, R109). -/
def execLsrZp (zp : Byte) (s : State) : Result := .next (shift .lsr (.mem (.zp zp)) s)

/-- LSR ZPX `56` (R197, R110). -/
def execLsrZpx (zp : Byte) (s : State) : Result := .next (shift .lsr (.mem (.zpx zp)) s)

/-- LSR ABS `4E` (R197, R112). -/
def execLsrAbs (addr : Word) (s : State) : Result := .next (shift .lsr (.mem (.abs addr)) s)

/-- LSR ABX `5E` (R197, R113). -/
def execLsrAbx (addr : Word) (s : State) : Result := .next (shift .lsr (.mem (.abx addr)) s)

/-- ROL ACC `2A` (R198, R107). -/
def execRolAcc (s : State) : Result := .next (shift .rol .acc s)

/-- ROL ZP `26` (R198, R109). -/
def execRolZp (zp : Byte) (s : State) : Result := .next (shift .rol (.mem (.zp zp)) s)

/-- ROL ZPX `36` (R198, R110). -/
def execRolZpx (zp : Byte) (s : State) : Result := .next (shift .rol (.mem (.zpx zp)) s)

/-- ROL ABS `2E` (R198, R112). -/
def execRolAbs (addr : Word) (s : State) : Result := .next (shift .rol (.mem (.abs addr)) s)

/-- ROL ABX `3E` (R198, R113). -/
def execRolAbx (addr : Word) (s : State) : Result := .next (shift .rol (.mem (.abx addr)) s)

/-- ROR ACC `6A` (R199, R107). -/
def execRorAcc (s : State) : Result := .next (shift .ror .acc s)

/-- ROR ZP `66` (R199, R109). -/
def execRorZp (zp : Byte) (s : State) : Result := .next (shift .ror (.mem (.zp zp)) s)

/-- ROR ZPX `76` (R199, R110). -/
def execRorZpx (zp : Byte) (s : State) : Result := .next (shift .ror (.mem (.zpx zp)) s)

/-- ROR ABS `6E` (R199, R112). -/
def execRorAbs (addr : Word) (s : State) : Result := .next (shift .ror (.mem (.abs addr)) s)

/-- ROR ABX `7E` (R199, R113). -/
def execRorAbx (addr : Word) (s : State) : Result := .next (shift .ror (.mem (.abx addr)) s)

end Sys2Proof.Machine
end

