-- ==== Sys2Proof/Machine/Stack.lean ====
section
/-! DEFINITION. Stack instructions (spec/43_stack.md R174 to R177). -/

namespace Sys2Proof.Machine

/-- PHA `48` (R174, R106): no flag. -/
def execPha (s : State) : Result := .next (push8 s.a s)

/-- PLA `68` (R175, R106): Zero and Negative from the value pulled. -/
def execPla (s : State) : Result := .next (loadA (pop8 s).1 (pop8 s).2)

/-- PHP `08` (R176, R106): `P` is unchanged. -/
def execPhp (s : State) : Result := .next (pushP s)

/-- PLP `28` (R177, R106): the forced bits come back as 0. -/
def execPlp (s : State) : Result := .next (popP s)

end Sys2Proof.Machine
end

