-- ==== Sys2Proof/Machine/Transfer.lean ====
section
/-! DEFINITION. Register transfers (spec/41_transfer.md R150 to R155). All but TXS set Zero and Negative. -/

namespace Sys2Proof.Machine

/-- TAX `AA` (R150, R106). -/
def execTax (s : State) : Result := .next (loadX s.a s)

/-- TAY `A8` (R151, R106). -/
def execTay (s : State) : Result := .next (loadY s.a s)

/-- TXA `8A` (R152, R106). -/
def execTxa (s : State) : Result := .next (loadA s.x s)

/-- TYA `98` (R153, R106). -/
def execTya (s : State) : Result := .next (loadA s.y s)

/-- TSX `BA` (R154, R106). -/
def execTsx (s : State) : Result := .next (loadX s.sp s)

/-- TXS `9A` (R155, R106): sets no flag. -/
def execTxs (s : State) : Result := .next (s.setSp s.x)

end Sys2Proof.Machine
end

