-- ==== Sys2Proof/Decode.lean ====
section
/-! DEFINITION. The instruction decoder, total on any bytes, and after it the encoder
(spec/30_encoding.md R100, R101, R120, R121, R123). The decoder is written from the 16 x 16 grid of R120, the
encoder from the list by mnemonic of the same rule. The opcode numbers are PRESUMED by the spec itself
(spec/93_implementation_defined.md G1; unsafe, notes/assumptions/6.md). -/

namespace Sys2Proof

/-- What follows the opcode byte and the instruction it then makes: the formats F1, F2, F3 of R100. -/
inductive Form where
  | implied (i : Instr)
  | byte (f : Byte → Instr)
  | word (f : Word → Instr)

/-- Bytes of an instruction of that format, the opcode among them (R100, R123). -/
def formLength : Form → Nat
  | .implied _ => 1
  | .byte _ => 2
  | .word _ => 3

/-- Row `0x` of the grid of R120, by low nibble; `none` is an unknown opcode. -/
def gridRow0 : Nat → Option Form
  | 0x0 => some (.implied .brk)
  | 0x1 => some (.byte .oraIzx)
  | 0x5 => some (.byte .oraZp)
  | 0x6 => some (.byte .aslZp)
  | 0x8 => some (.implied .php)
  | 0x9 => some (.byte .oraImm)
  | 0xA => some (.implied .aslAcc)
  | 0xD => some (.word .oraAbs)
  | 0xE => some (.word .aslAbs)
  | _ => none

/-- Row `1x` of the grid of R120, by low nibble; `none` is an unknown opcode. -/
def gridRow1 : Nat → Option Form
  | 0x0 => some (.byte .bpl)
  | 0x1 => some (.byte .oraIzy)
  | 0x5 => some (.byte .oraZpx)
  | 0x6 => some (.byte .aslZpx)
  | 0x8 => some (.implied .clc)
  | 0x9 => some (.word .oraAby)
  | 0xD => some (.word .oraAbx)
  | 0xE => some (.word .aslAbx)
  | _ => none

/-- Row `2x` of the grid of R120, by low nibble; `none` is an unknown opcode. -/
def gridRow2 : Nat → Option Form
  | 0x0 => some (.word .jsr)
  | 0x1 => some (.byte .andIzx)
  | 0x4 => some (.byte .bitZp)
  | 0x5 => some (.byte .andZp)
  | 0x6 => some (.byte .rolZp)
  | 0x8 => some (.implied .plp)
  | 0x9 => some (.byte .andImm)
  | 0xA => some (.implied .rolAcc)
  | 0xC => some (.word .bitAbs)
  | 0xD => some (.word .andAbs)
  | 0xE => some (.word .rolAbs)
  | _ => none

/-- Row `3x` of the grid of R120, by low nibble; `none` is an unknown opcode. -/
def gridRow3 : Nat → Option Form
  | 0x0 => some (.byte .bmi)
  | 0x1 => some (.byte .andIzy)
  | 0x5 => some (.byte .andZpx)
  | 0x6 => some (.byte .rolZpx)
  | 0x8 => some (.implied .sec)
  | 0x9 => some (.word .andAby)
  | 0xD => some (.word .andAbx)
  | 0xE => some (.word .rolAbx)
  | _ => none

/-- Row `4x` of the grid of R120, by low nibble; `none` is an unknown opcode. -/
def gridRow4 : Nat → Option Form
  | 0x0 => some (.implied .rti)
  | 0x1 => some (.byte .eorIzx)
  | 0x5 => some (.byte .eorZp)
  | 0x6 => some (.byte .lsrZp)
  | 0x8 => some (.implied .pha)
  | 0x9 => some (.byte .eorImm)
  | 0xA => some (.implied .lsrAcc)
  | 0xC => some (.word .jmpAbs)
  | 0xD => some (.word .eorAbs)
  | 0xE => some (.word .lsrAbs)
  | _ => none

/-- Row `5x` of the grid of R120, by low nibble; `none` is an unknown opcode. -/
def gridRow5 : Nat → Option Form
  | 0x0 => some (.byte .bvc)
  | 0x1 => some (.byte .eorIzy)
  | 0x5 => some (.byte .eorZpx)
  | 0x6 => some (.byte .lsrZpx)
  | 0x8 => some (.implied .cli)
  | 0x9 => some (.word .eorAby)
  | 0xD => some (.word .eorAbx)
  | 0xE => some (.word .lsrAbx)
  | _ => none

/-- Row `6x` of the grid of R120, by low nibble; `none` is an unknown opcode. -/
def gridRow6 : Nat → Option Form
  | 0x0 => some (.implied .rts)
  | 0x1 => some (.byte .adcIzx)
  | 0x5 => some (.byte .adcZp)
  | 0x6 => some (.byte .rorZp)
  | 0x8 => some (.implied .pla)
  | 0x9 => some (.byte .adcImm)
  | 0xA => some (.implied .rorAcc)
  | 0xC => some (.word .jmpInd)
  | 0xD => some (.word .adcAbs)
  | 0xE => some (.word .rorAbs)
  | _ => none

/-- Row `7x` of the grid of R120, by low nibble; `none` is an unknown opcode. -/
def gridRow7 : Nat → Option Form
  | 0x0 => some (.byte .bvs)
  | 0x1 => some (.byte .adcIzy)
  | 0x5 => some (.byte .adcZpx)
  | 0x6 => some (.byte .rorZpx)
  | 0x8 => some (.implied .sei)
  | 0x9 => some (.word .adcAby)
  | 0xD => some (.word .adcAbx)
  | 0xE => some (.word .rorAbx)
  | _ => none

/-- Row `8x` of the grid of R120, by low nibble; `none` is an unknown opcode. -/
def gridRow8 : Nat → Option Form
  | 0x1 => some (.byte .staIzx)
  | 0x4 => some (.byte .styZp)
  | 0x5 => some (.byte .staZp)
  | 0x6 => some (.byte .stxZp)
  | 0x8 => some (.implied .dey)
  | 0xA => some (.implied .txa)
  | 0xC => some (.word .styAbs)
  | 0xD => some (.word .staAbs)
  | 0xE => some (.word .stxAbs)
  | _ => none

/-- Row `9x` of the grid of R120, by low nibble; `none` is an unknown opcode. -/
def gridRow9 : Nat → Option Form
  | 0x0 => some (.byte .bcc)
  | 0x1 => some (.byte .staIzy)
  | 0x4 => some (.byte .styZpx)
  | 0x5 => some (.byte .staZpx)
  | 0x6 => some (.byte .stxZpy)
  | 0x8 => some (.implied .tya)
  | 0x9 => some (.word .staAby)
  | 0xA => some (.implied .txs)
  | 0xD => some (.word .staAbx)
  | _ => none

/-- Row `Ax` of the grid of R120, by low nibble; `none` is an unknown opcode. -/
def gridRowA : Nat → Option Form
  | 0x0 => some (.byte .ldyImm)
  | 0x1 => some (.byte .ldaIzx)
  | 0x2 => some (.byte .ldxImm)
  | 0x4 => some (.byte .ldyZp)
  | 0x5 => some (.byte .ldaZp)
  | 0x6 => some (.byte .ldxZp)
  | 0x8 => some (.implied .tay)
  | 0x9 => some (.byte .ldaImm)
  | 0xA => some (.implied .tax)
  | 0xC => some (.word .ldyAbs)
  | 0xD => some (.word .ldaAbs)
  | 0xE => some (.word .ldxAbs)
  | _ => none

/-- Row `Bx` of the grid of R120, by low nibble; `none` is an unknown opcode. -/
def gridRowB : Nat → Option Form
  | 0x0 => some (.byte .bcs)
  | 0x1 => some (.byte .ldaIzy)
  | 0x4 => some (.byte .ldyZpx)
  | 0x5 => some (.byte .ldaZpx)
  | 0x6 => some (.byte .ldxZpy)
  | 0x8 => some (.implied .clv)
  | 0x9 => some (.word .ldaAby)
  | 0xA => some (.implied .tsx)
  | 0xC => some (.word .ldyAbx)
  | 0xD => some (.word .ldaAbx)
  | 0xE => some (.word .ldxAby)
  | _ => none

/-- Row `Cx` of the grid of R120, by low nibble; `none` is an unknown opcode. -/
def gridRowC : Nat → Option Form
  | 0x0 => some (.byte .cpyImm)
  | 0x1 => some (.byte .cmpIzx)
  | 0x4 => some (.byte .cpyZp)
  | 0x5 => some (.byte .cmpZp)
  | 0x6 => some (.byte .decZp)
  | 0x8 => some (.implied .iny)
  | 0x9 => some (.byte .cmpImm)
  | 0xA => some (.implied .dex)
  | 0xC => some (.word .cpyAbs)
  | 0xD => some (.word .cmpAbs)
  | 0xE => some (.word .decAbs)
  | _ => none

/-- Row `Dx` of the grid of R120, by low nibble; `none` is an unknown opcode. -/
def gridRowD : Nat → Option Form
  | 0x0 => some (.byte .bne)
  | 0x1 => some (.byte .cmpIzy)
  | 0x5 => some (.byte .cmpZpx)
  | 0x6 => some (.byte .decZpx)
  | 0x8 => some (.implied .cld)
  | 0x9 => some (.word .cmpAby)
  | 0xD => some (.word .cmpAbx)
  | 0xE => some (.word .decAbx)
  | _ => none

/-- Row `Ex` of the grid of R120, by low nibble; `none` is an unknown opcode. -/
def gridRowE : Nat → Option Form
  | 0x0 => some (.byte .cpxImm)
  | 0x1 => some (.byte .sbcIzx)
  | 0x4 => some (.byte .cpxZp)
  | 0x5 => some (.byte .sbcZp)
  | 0x6 => some (.byte .incZp)
  | 0x8 => some (.implied .inx)
  | 0x9 => some (.byte .sbcImm)
  | 0xA => some (.implied .nop)
  | 0xC => some (.word .cpxAbs)
  | 0xD => some (.word .sbcAbs)
  | 0xE => some (.word .incAbs)
  | _ => none

/-- Row `Fx` of the grid of R120, by low nibble; `none` is an unknown opcode. -/
def gridRowF : Nat → Option Form
  | 0x0 => some (.byte .beq)
  | 0x1 => some (.byte .sbcIzy)
  | 0x5 => some (.byte .sbcZpx)
  | 0x6 => some (.byte .incZpx)
  | 0x8 => some (.implied .sed)
  | 0x9 => some (.word .sbcAby)
  | 0xD => some (.word .sbcAbx)
  | 0xE => some (.word .incAbx)
  | _ => none

/-- The grid of R120: high nibble selects the row. -/
def grid (op : Byte) : Option Form :=
  match op.toNat / 16 with
  | 0x0 => gridRow0 (op.toNat % 16)
  | 0x1 => gridRow1 (op.toNat % 16)
  | 0x2 => gridRow2 (op.toNat % 16)
  | 0x3 => gridRow3 (op.toNat % 16)
  | 0x4 => gridRow4 (op.toNat % 16)
  | 0x5 => gridRow5 (op.toNat % 16)
  | 0x6 => gridRow6 (op.toNat % 16)
  | 0x7 => gridRow7 (op.toNat % 16)
  | 0x8 => gridRow8 (op.toNat % 16)
  | 0x9 => gridRow9 (op.toNat % 16)
  | 0xA => gridRowA (op.toNat % 16)
  | 0xB => gridRowB (op.toNat % 16)
  | 0xC => gridRowC (op.toNat % 16)
  | 0xD => gridRowD (op.toNat % 16)
  | 0xE => gridRowE (op.toNat % 16)
  | 0xF => gridRowF (op.toNat % 16)
  | _ => none

/-- `Decode` of R101 on the opcode byte alone; `absent` is the complement of `OPCODE_SET` (R11), whose members
are unknown opcodes (R121). -/
def decodeOpcode (absent : List Byte) (op : Byte) : Option Form :=
  if absent.contains op then none else grid op

/-- Why bytes are rejected: no byte at all, an opcode byte with no row (R121), operand bytes missing. -/
inductive DecodeReject where
  | noByte
  | unknownOpcode (op : Byte)
  | missingOperand (op : Byte)
  deriving DecidableEq, Repr

/-- The instruction at the head of a list of bytes, and the bytes after it. The low byte of a 16-bit operand
comes first (R100, R104). -/
def decodeWith (absent : List Byte) : List Byte → Except DecodeReject (Instr × List Byte)
  | [] => .error .noByte
  | op :: rest =>
    match decodeOpcode absent op, rest with
    | none, _ => .error (.unknownOpcode op)
    | some (.implied i), rest => .ok (i, rest)
    | some (.byte f), b :: rest => .ok (f b, rest)
    | some (.word f), lo :: hi :: rest => .ok (f (hi ++ lo), rest)
    | some _, _ => .error (.missingOperand op)

/-- The platform's decoder. -/
def decode (bytes : List Byte) : Except DecodeReject (Instr × List Byte) :=
  decodeWith Machine.platform.absentOpcodes bytes

/-- Byte `k` of a number, byte 0 the least significant. -/
def byteOfNat (k w : Nat) : Byte := BitVec.ofNat 8 (w / 256 ^ k)

/-- The three bytes, in fetch order, of a table word of `nbits` bits: bit 0 is the least significant bit of the
first byte, and every bit from `nbits` on is 0. -/
def tableBytes (nbits w : Nat) : List Byte :=
  let w := w % 2 ^ nbits
  [byteOfNat 0 w, byteOfNat 1 w, byteOfNat 2 w]

/-- The instruction the decoder reads from a table word, `none` where it rejects. -/
def decodeTableWord (nbits w : Nat) : Option Instr :=
  match decode (tableBytes nbits w) with
  | .ok (i, _) => some i
  | .error _ => none

/-- An instruction without an operand byte (format F1). -/
def encode0 (op : Byte) : List Byte := [op]

/-- Opcode and one operand byte (format F2). -/
def encode1 (op b : Byte) : List Byte := [op, b]

/-- Opcode and a little-endian word (format F3). -/
def encode2 (op : Byte) (w : Word) : List Byte := [op, w.setWidth 8, (w >>> 8).setWidth 8]

/-- The bytes of an instruction, from the list by mnemonic of R120. -/
def encode : Instr → List Byte
  | .ldaImm v => encode1 0xA9 v
  | .ldaZp zp => encode1 0xA5 zp
  | .ldaZpx zp => encode1 0xB5 zp
  | .ldaAbs addr => encode2 0xAD addr
  | .ldaAbx addr => encode2 0xBD addr
  | .ldaAby addr => encode2 0xB9 addr
  | .ldaIzx zp => encode1 0xA1 zp
  | .ldaIzy zp => encode1 0xB1 zp
  | .ldxImm v => encode1 0xA2 v
  | .ldxZp zp => encode1 0xA6 zp
  | .ldxZpy zp => encode1 0xB6 zp
  | .ldxAbs addr => encode2 0xAE addr
  | .ldxAby addr => encode2 0xBE addr
  | .ldyImm v => encode1 0xA0 v
  | .ldyZp zp => encode1 0xA4 zp
  | .ldyZpx zp => encode1 0xB4 zp
  | .ldyAbs addr => encode2 0xAC addr
  | .ldyAbx addr => encode2 0xBC addr
  | .staZp zp => encode1 0x85 zp
  | .staZpx zp => encode1 0x95 zp
  | .staAbs addr => encode2 0x8D addr
  | .staAbx addr => encode2 0x9D addr
  | .staAby addr => encode2 0x99 addr
  | .staIzx zp => encode1 0x81 zp
  | .staIzy zp => encode1 0x91 zp
  | .stxZp zp => encode1 0x86 zp
  | .stxZpy zp => encode1 0x96 zp
  | .stxAbs addr => encode2 0x8E addr
  | .styZp zp => encode1 0x84 zp
  | .styZpx zp => encode1 0x94 zp
  | .styAbs addr => encode2 0x8C addr
  | .tax => encode0 0xAA
  | .tay => encode0 0xA8
  | .txa => encode0 0x8A
  | .tya => encode0 0x98
  | .tsx => encode0 0xBA
  | .txs => encode0 0x9A
  | .incZp zp => encode1 0xE6 zp
  | .incZpx zp => encode1 0xF6 zp
  | .incAbs addr => encode2 0xEE addr
  | .incAbx addr => encode2 0xFE addr
  | .decZp zp => encode1 0xC6 zp
  | .decZpx zp => encode1 0xD6 zp
  | .decAbs addr => encode2 0xCE addr
  | .decAbx addr => encode2 0xDE addr
  | .inx => encode0 0xE8
  | .iny => encode0 0xC8
  | .dex => encode0 0xCA
  | .dey => encode0 0x88
  | .pha => encode0 0x48
  | .pla => encode0 0x68
  | .php => encode0 0x08
  | .plp => encode0 0x28
  | .andImm v => encode1 0x29 v
  | .andZp zp => encode1 0x25 zp
  | .andZpx zp => encode1 0x35 zp
  | .andAbs addr => encode2 0x2D addr
  | .andAbx addr => encode2 0x3D addr
  | .andAby addr => encode2 0x39 addr
  | .andIzx zp => encode1 0x21 zp
  | .andIzy zp => encode1 0x31 zp
  | .oraImm v => encode1 0x09 v
  | .oraZp zp => encode1 0x05 zp
  | .oraZpx zp => encode1 0x15 zp
  | .oraAbs addr => encode2 0x0D addr
  | .oraAbx addr => encode2 0x1D addr
  | .oraAby addr => encode2 0x19 addr
  | .oraIzx zp => encode1 0x01 zp
  | .oraIzy zp => encode1 0x11 zp
  | .eorImm v => encode1 0x49 v
  | .eorZp zp => encode1 0x45 zp
  | .eorZpx zp => encode1 0x55 zp
  | .eorAbs addr => encode2 0x4D addr
  | .eorAbx addr => encode2 0x5D addr
  | .eorAby addr => encode2 0x59 addr
  | .eorIzx zp => encode1 0x41 zp
  | .eorIzy zp => encode1 0x51 zp
  | .bitZp zp => encode1 0x24 zp
  | .bitAbs addr => encode2 0x2C addr
  | .adcImm v => encode1 0x69 v
  | .adcZp zp => encode1 0x65 zp
  | .adcZpx zp => encode1 0x75 zp
  | .adcAbs addr => encode2 0x6D addr
  | .adcAbx addr => encode2 0x7D addr
  | .adcAby addr => encode2 0x79 addr
  | .adcIzx zp => encode1 0x61 zp
  | .adcIzy zp => encode1 0x71 zp
  | .sbcImm v => encode1 0xE9 v
  | .sbcZp zp => encode1 0xE5 zp
  | .sbcZpx zp => encode1 0xF5 zp
  | .sbcAbs addr => encode2 0xED addr
  | .sbcAbx addr => encode2 0xFD addr
  | .sbcAby addr => encode2 0xF9 addr
  | .sbcIzx zp => encode1 0xE1 zp
  | .sbcIzy zp => encode1 0xF1 zp
  | .aslAcc => encode0 0x0A
  | .aslZp zp => encode1 0x06 zp
  | .aslZpx zp => encode1 0x16 zp
  | .aslAbs addr => encode2 0x0E addr
  | .aslAbx addr => encode2 0x1E addr
  | .lsrAcc => encode0 0x4A
  | .lsrZp zp => encode1 0x46 zp
  | .lsrZpx zp => encode1 0x56 zp
  | .lsrAbs addr => encode2 0x4E addr
  | .lsrAbx addr => encode2 0x5E addr
  | .rolAcc => encode0 0x2A
  | .rolZp zp => encode1 0x26 zp
  | .rolZpx zp => encode1 0x36 zp
  | .rolAbs addr => encode2 0x2E addr
  | .rolAbx addr => encode2 0x3E addr
  | .rorAcc => encode0 0x6A
  | .rorZp zp => encode1 0x66 zp
  | .rorZpx zp => encode1 0x76 zp
  | .rorAbs addr => encode2 0x6E addr
  | .rorAbx addr => encode2 0x7E addr
  | .cmpImm v => encode1 0xC9 v
  | .cmpZp zp => encode1 0xC5 zp
  | .cmpZpx zp => encode1 0xD5 zp
  | .cmpAbs addr => encode2 0xCD addr
  | .cmpAbx addr => encode2 0xDD addr
  | .cmpAby addr => encode2 0xD9 addr
  | .cmpIzx zp => encode1 0xC1 zp
  | .cmpIzy zp => encode1 0xD1 zp
  | .cpxImm v => encode1 0xE0 v
  | .cpxZp zp => encode1 0xE4 zp
  | .cpxAbs addr => encode2 0xEC addr
  | .cpyImm v => encode1 0xC0 v
  | .cpyZp zp => encode1 0xC4 zp
  | .cpyAbs addr => encode2 0xCC addr
  | .bpl off => encode1 0x10 off
  | .bmi off => encode1 0x30 off
  | .bvc off => encode1 0x50 off
  | .bvs off => encode1 0x70 off
  | .bcc off => encode1 0x90 off
  | .bcs off => encode1 0xB0 off
  | .bne off => encode1 0xD0 off
  | .beq off => encode1 0xF0 off
  | .jmpAbs addr => encode2 0x4C addr
  | .jmpInd ptr => encode2 0x6C ptr
  | .jsr addr => encode2 0x20 addr
  | .rts => encode0 0x60
  | .clc => encode0 0x18
  | .sec => encode0 0x38
  | .cli => encode0 0x58
  | .sei => encode0 0x78
  | .clv => encode0 0xB8
  | .cld => encode0 0xD8
  | .sed => encode0 0xF8
  | .brk => encode0 0x00
  | .rti => encode0 0x40
  | .nop => encode0 0xEA

/-- The opcode byte of an instruction. -/
def opcode (i : Instr) : Byte := (encode i).headD 0

/-- How many bytes an instruction has, `1 + operand_bytes(mode)` of R123. -/
def instrLength (i : Instr) : Nat := (encode i).length

end Sys2Proof
end

