-- ==== Sys2Proof/Machine/Fetch.lean ====
section
/-! DEFINITION. Fetching a whole instruction (spec/30_encoding.md R102, R104) and placing one in the images, for
`State.withFetchWord`. -/

namespace Sys2Proof.Machine

/-- What the bytes at `PC` turn out to be. -/
inductive Fetched where
  | instr (i : Instr)
  | unknown (op : Byte)
  deriving DecidableEq, Repr

/-- The opcode byte, then as many operand bytes as its format has, each by `Fetch8()` (R102, R104): an unknown
opcode consumes no operand byte (R121). -/
def fetchInstr (s : State) : Fetched × State :=
  let op := fetch8 s
  match decodeOpcode s.config.absentOpcodes op.1 with
  | none => (.unknown op.1, op.2)
  | some (.implied i) => (.instr i, op.2)
  | some (.byte f) => (.instr (f (fetch8 op.2).1), (fetch8 op.2).2)
  | some (.word f) => (.instr (f (fetch16 op.2).1), (fetch16 op.2).2)

/-- `n` fetches' effect: `PC` moves on `n` bytes, with the effect of each read. -/
def afterFetches : Nat → State → State
  | 0, s => s
  | n + 1, s => afterFetches n (fetch8 s).2

/-- Puts one byte where a fetch at `a` will find it: in the ROM image or in RAM. Not an action of the machine. -/
def placeByte (a : Word) (v : Byte) (s : State) : State :=
  match region a with
  | .rom => s.setRom (s.rom.write (a.toNat - 0x8000) v)
  | .io => s
  | .ram => s.setRam (s.ram.write a.toNat v)

/-- The three bytes from `a` on are all RAM or ROM. -/
def placeable (a : Word) : Bool := region a != .io && region (a + 1) != .io && region (a + 2) != .io

/-- Where `State.withFetchWord` puts its instruction: at `PC`, or at `0x0200` when one of the three bytes at `PC`
falls in the I/O window, which cannot hold an instruction's bytes (notes/assumptions/11.md). -/
def placeAddr (s : State) : Word := if placeable s.pc then s.pc else 0x0200

/-- Three bytes placed from `a` on. -/
def placeBytes (a : Word) (bytes : List Byte) (s : State) : State :=
  match bytes with
  | [] => s
  | b :: rest => placeBytes (a + 1) rest (placeByte a b s)

end Sys2Proof.Machine
end

