-- ==== Sys2Proof/Machine/Tick.lean ====
section
/-! DEFINITION. One instruction (spec/30_encoding.md R102), one host action (spec/60_exceptions.md R276), and which
action comes next. -/

namespace Sys2Proof.Machine

/-- `tick()` (spec/30_encoding.md R102): exactly one instruction. -/
def tick (s : State) : Host.Outcome State Fault Refusal :=
  match (fetchInstr s).1 with
  | .instr i => exec i (fetchInstr s).2
  | .unknown op => .next (unknownOpcode op (fetchInstr s).2)

/-- One host action (R276). A state with `FATAL` set has no successor, whatever the host does (R262). -/
def act (h : HostAction) (s : State) : Host.Outcome State Fault Refusal :=
  if s.fatal then .fault .fatalStop
  else
    match h with
    | .tick => tick s
    | .event e => .next (hostEffect e s)

/-- The action a host script gives next (R270). -/
def HostScript.next (h : HostScript) : HostAction :=
  match h.soon, h.later with
  | a :: _, _ => a
  | [], .ticks => .tick
  | [], .free n => Config.hostAction n

/-- The script once that action is taken. -/
def HostScript.rest (h : HostScript) : HostScript :=
  match h.soon, h.later with
  | _ :: tail, l => ⟨tail, l⟩
  | [], .ticks => ⟨[], .ticks⟩
  | [], .free n => ⟨[], .free (n + 1)⟩

/-- The host's next action (R270). -/
def State.nextAction (s : State) : HostAction := s.host.next

/-- The state with that action taken off the host's sequence. -/
def State.takeAction (s : State) : State := s.setHost s.host.rest

end Sys2Proof.Machine
end

