-- ==== Sys2Proof/Machine/Step.lean ====
section
/-! DEFINITION. One step of the machine: one host action of spec/60_exceptions.md R276. -/

namespace Sys2Proof.Machine

/-- The host's next action, done (R270). -/
def step (s : State) : Host.Outcome State Fault Refusal := act s.nextAction s.takeAction

/-- `s` with the instruction of a table word placed where the next step fetches it: its three bytes at `PC`
(at `0x0200` if `PC` is in or at the edge of the I/O window), and a `tick()` put before the host's other actions
(notes/assumptions/9.md, 11.md). -/
def State.withFetchWord (s : State) (nbits w : Nat) : State :=
  (placeBytes (placeAddr s) (tableBytes nbits w) (s.setPc (placeAddr s))).setHost ⟨.tick :: s.host.soon, s.host.later⟩

end Sys2Proof.Machine
end

