-- ==== Sys2Proof/WellFormed.lean ====
section
/-! DEFINITION. Which instructions are well formed. Every operand is a byte or a word by its type, so the one
check left is `OPCODE_SET` (spec/00_scope.md R11): the instruction's opcode has a row in the table. -/

namespace Sys2Proof

/-- The instruction is in the opcode set whose complement is `absent` (R11, R121). -/
def wellFormedIn (absent : List Byte) (i : Instr) : Bool := !absent.contains (opcode i)

/-- The instruction is one of the platform's. -/
def wellFormed (i : Instr) : Bool := wellFormedIn Machine.platform.absentOpcodes i

end Sys2Proof
end

