-- ==== Sys2Proof/Safety.lean ====
section
/-! DEFINITION. The terms claims use: a running machine, the invariant of the state, what each instruction may
write (from the tables of spec/10_state.md R21, R22, R25 and spec/20_memory.md R92), and the forms of an
instruction family. Nothing here is read by the machine. -/

namespace Sys2Proof.Machine

/-- The machine has not stopped (spec/60_exceptions.md R262). -/
abbrev State.running (s : State) : Prop := s.fatal = false

/-- An address of RAM that the router can reach (R31, R51). -/
def ramAddress (n : Nat) : Bool := decide (n < 0x6000) || (decide (0x6010 ≤ n) && decide (n < 0x8000))

/-- The invariant: the three stores are in canonical form and list only addresses they have (R31 to R33). -/
abbrev State.wf (s : State) : Prop :=
  s.ram.wf ∧ s.rom.wf ∧ s.cart.wf ∧ s.ram.within ramAddress ∧ s.rom.within (fun n => decide (n < 0x8000)) ∧
    s.cart.within (fun n => decide (n < 0x1000000))

/-- The three bytes at `PC`, as the router gives them. -/
def bytesAtPc (s : State) : List Byte := [byteAt s s.pc, byteAt s (s.pc + 1), byteAt s (s.pc + 2)]

/-- The address of the instruction's one data write, if it makes one (R92, R119): STA, STX, STY and the memory
forms of INC, DEC, ASL, LSR, ROL, ROR. -/
def dataStore (i : Instr) (s : State) : Option Word :=
  match i with
  | .staZp zp => some (effAddr (.zp zp) s)
  | .staZpx zp => some (effAddr (.zpx zp) s)
  | .staAbs addr => some (effAddr (.abs addr) s)
  | .staAbx addr => some (effAddr (.abx addr) s)
  | .staAby addr => some (effAddr (.aby addr) s)
  | .staIzx zp => some (effAddr (.izx zp) s)
  | .staIzy zp => some (effAddr (.izy zp) s)
  | .stxZp zp => some (effAddr (.zp zp) s)
  | .stxZpy zp => some (effAddr (.zpy zp) s)
  | .stxAbs addr => some (effAddr (.abs addr) s)
  | .styZp zp => some (effAddr (.zp zp) s)
  | .styZpx zp => some (effAddr (.zpx zp) s)
  | .styAbs addr => some (effAddr (.abs addr) s)
  | .incZp zp => some (effAddr (.zp zp) s)
  | .incZpx zp => some (effAddr (.zpx zp) s)
  | .incAbs addr => some (effAddr (.abs addr) s)
  | .incAbx addr => some (effAddr (.abx addr) s)
  | .decZp zp => some (effAddr (.zp zp) s)
  | .decZpx zp => some (effAddr (.zpx zp) s)
  | .decAbs addr => some (effAddr (.abs addr) s)
  | .decAbx addr => some (effAddr (.abx addr) s)
  | .aslZp zp => some (effAddr (.zp zp) s)
  | .aslZpx zp => some (effAddr (.zpx zp) s)
  | .aslAbs addr => some (effAddr (.abs addr) s)
  | .aslAbx addr => some (effAddr (.abx addr) s)
  | .lsrZp zp => some (effAddr (.zp zp) s)
  | .lsrZpx zp => some (effAddr (.zpx zp) s)
  | .lsrAbs addr => some (effAddr (.abs addr) s)
  | .lsrAbx addr => some (effAddr (.abx addr) s)
  | .rolZp zp => some (effAddr (.zp zp) s)
  | .rolZpx zp => some (effAddr (.zpx zp) s)
  | .rolAbs addr => some (effAddr (.abs addr) s)
  | .rolAbx addr => some (effAddr (.abx addr) s)
  | .rorZp zp => some (effAddr (.zp zp) s)
  | .rorZpx zp => some (effAddr (.zpx zp) s)
  | .rorAbs addr => some (effAddr (.abs addr) s)
  | .rorAbx addr => some (effAddr (.abx addr) s)
  | .ldaImm _ | .ldaZp _ | .ldaZpx _ | .ldaAbs _ | .ldaAbx _ | .ldaAby _ | .ldaIzx _ | .ldaIzy _ | .ldxImm _ |
    .ldxZp _ | .ldxZpy _ | .ldxAbs _ | .ldxAby _ | .ldyImm _ | .ldyZp _ | .ldyZpx _ | .ldyAbs _ | .ldyAbx _ |
    .tax | .tay | .txa | .tya | .tsx | .txs | .inx | .iny | .dex | .dey | .pha | .pla | .php | .plp |
    .andImm _ | .andZp _ | .andZpx _ | .andAbs _ | .andAbx _ | .andAby _ | .andIzx _ | .andIzy _ | .oraImm _ |
    .oraZp _ | .oraZpx _ | .oraAbs _ | .oraAbx _ | .oraAby _ | .oraIzx _ | .oraIzy _ | .eorImm _ | .eorZp _ |
    .eorZpx _ | .eorAbs _ | .eorAbx _ | .eorAby _ | .eorIzx _ | .eorIzy _ | .bitZp _ | .bitAbs _ | .adcImm _ |
    .adcZp _ | .adcZpx _ | .adcAbs _ | .adcAbx _ | .adcAby _ | .adcIzx _ | .adcIzy _ | .sbcImm _ | .sbcZp _ |
    .sbcZpx _ | .sbcAbs _ | .sbcAbx _ | .sbcAby _ | .sbcIzx _ | .sbcIzy _ | .aslAcc | .lsrAcc | .rolAcc |
    .rorAcc | .cmpImm _ | .cmpZp _ | .cmpZpx _ | .cmpAbs _ | .cmpAbx _ | .cmpAby _ | .cmpIzx _ | .cmpIzy _ |
    .cpxImm _ | .cpxZp _ | .cpxAbs _ | .cpyImm _ | .cpyZp _ | .cpyAbs _ | .bpl _ | .bmi _ | .bvc _ | .bvs _ |
    .bcc _ | .bcs _ | .bne _ | .beq _ | .jmpAbs _ | .jmpInd _ | .jsr _ | .rts | .clc | .sec | .cli | .sei |
    .clv | .cld | .sed | .brk | .rti | .nop => none

/-- The address of the `k`-th byte pushed from `s` (R170, R178). -/
def pushAddr (s : State) (k : Nat) : Word :=
  stackAddr (pushSlot s.config.stackDiscipline (s.sp - BitVec.ofNat 8 k))

/-- The address of the `k`-th byte pulled from `s` (R171, R178). -/
def popAddr (s : State) (k : Nat) : Word :=
  stackAddr (popSlot s.config.stackDiscipline (s.sp + BitVec.ofNat 8 k))

/-- The addresses of the stack page the instruction writes (R92): PHA, PHP, JSR, and BRK when it is taken. -/
def stackStores (i : Instr) (s : State) : List Word :=
  match i with
  | .pha | .php => [pushAddr s 0]
  | .jsr _ => [pushAddr s 0, pushAddr s 1]
  | .brk => if flag .I s.p then [] else [pushAddr s 0, pushAddr s 1, pushAddr s 2]
  | .ldaImm _ | .ldaZp _ | .ldaZpx _ | .ldaAbs _ | .ldaAbx _ | .ldaAby _ | .ldaIzx _ | .ldaIzy _ | .ldxImm _ |
    .ldxZp _ | .ldxZpy _ | .ldxAbs _ | .ldxAby _ | .ldyImm _ | .ldyZp _ | .ldyZpx _ | .ldyAbs _ | .ldyAbx _ |
    .staZp _ | .staZpx _ | .staAbs _ | .staAbx _ | .staAby _ | .staIzx _ | .staIzy _ | .stxZp _ | .stxZpy _ |
    .stxAbs _ | .styZp _ | .styZpx _ | .styAbs _ | .tax | .tay | .txa | .tya | .tsx | .txs | .incZp _ |
    .incZpx _ | .incAbs _ | .incAbx _ | .decZp _ | .decZpx _ | .decAbs _ | .decAbx _ | .inx | .iny | .dex |
    .dey | .pla | .plp | .andImm _ | .andZp _ | .andZpx _ | .andAbs _ | .andAbx _ | .andAby _ | .andIzx _ |
    .andIzy _ | .oraImm _ | .oraZp _ | .oraZpx _ | .oraAbs _ | .oraAbx _ | .oraAby _ | .oraIzx _ | .oraIzy _ |
    .eorImm _ | .eorZp _ | .eorZpx _ | .eorAbs _ | .eorAbx _ | .eorAby _ | .eorIzx _ | .eorIzy _ | .bitZp _ |
    .bitAbs _ | .adcImm _ | .adcZp _ | .adcZpx _ | .adcAbs _ | .adcAbx _ | .adcAby _ | .adcIzx _ | .adcIzy _ |
    .sbcImm _ | .sbcZp _ | .sbcZpx _ | .sbcAbs _ | .sbcAbx _ | .sbcAby _ | .sbcIzx _ | .sbcIzy _ | .aslAcc |
    .aslZp _ | .aslZpx _ | .aslAbs _ | .aslAbx _ | .lsrAcc | .lsrZp _ | .lsrZpx _ | .lsrAbs _ | .lsrAbx _ |
    .rolAcc | .rolZp _ | .rolZpx _ | .rolAbs _ | .rolAbx _ | .rorAcc | .rorZp _ | .rorZpx _ | .rorAbs _ |
    .rorAbx _ | .cmpImm _ | .cmpZp _ | .cmpZpx _ | .cmpAbs _ | .cmpAbx _ | .cmpAby _ | .cmpIzx _ | .cmpIzy _ |
    .cpxImm _ | .cpxZp _ | .cpxAbs _ | .cpyImm _ | .cpyZp _ | .cpyAbs _ | .bpl _ | .bmi _ | .bvc _ | .bvs _ |
    .bcc _ | .bcs _ | .bne _ | .beq _ | .jmpAbs _ | .jmpInd _ | .rts | .clc | .sec | .cli | .sei | .clv |
    .cld | .sed | .rti | .nop => []

/-- Every address the instruction stores a byte to. -/
def storedAddrs (i : Instr) (s : State) : List Word := (dataStore i s).toList ++ stackStores i s

/-- The instructions that write `A` (R21). -/
def writesA (i : Instr) : Bool :=
  match i with
  | .ldaImm _ | .ldaZp _ | .ldaZpx _ | .ldaAbs _ | .ldaAbx _ | .ldaAby _ | .ldaIzx _ | .ldaIzy _ | .txa |
    .tya | .pla | .adcImm _ | .adcZp _ | .adcZpx _ | .adcAbs _ | .adcAbx _ | .adcAby _ | .adcIzx _ |
    .adcIzy _ | .sbcImm _ | .sbcZp _ | .sbcZpx _ | .sbcAbs _ | .sbcAbx _ | .sbcAby _ | .sbcIzx _ | .sbcIzy _ |
    .andImm _ | .andZp _ | .andZpx _ | .andAbs _ | .andAbx _ | .andAby _ | .andIzx _ | .andIzy _ | .oraImm _ |
    .oraZp _ | .oraZpx _ | .oraAbs _ | .oraAbx _ | .oraAby _ | .oraIzx _ | .oraIzy _ | .eorImm _ | .eorZp _ |
    .eorZpx _ | .eorAbs _ | .eorAbx _ | .eorAby _ | .eorIzx _ | .eorIzy _ | .aslAcc | .lsrAcc | .rolAcc |
    .rorAcc => true
  | .ldxImm _ | .ldxZp _ | .ldxZpy _ | .ldxAbs _ | .ldxAby _ | .ldyImm _ | .ldyZp _ | .ldyZpx _ | .ldyAbs _ |
    .ldyAbx _ | .staZp _ | .staZpx _ | .staAbs _ | .staAbx _ | .staAby _ | .staIzx _ | .staIzy _ | .stxZp _ |
    .stxZpy _ | .stxAbs _ | .styZp _ | .styZpx _ | .styAbs _ | .tax | .tay | .tsx | .txs | .incZp _ |
    .incZpx _ | .incAbs _ | .incAbx _ | .decZp _ | .decZpx _ | .decAbs _ | .decAbx _ | .inx | .iny | .dex |
    .dey | .pha | .php | .plp | .bitZp _ | .bitAbs _ | .aslZp _ | .aslZpx _ | .aslAbs _ | .aslAbx _ |
    .lsrZp _ | .lsrZpx _ | .lsrAbs _ | .lsrAbx _ | .rolZp _ | .rolZpx _ | .rolAbs _ | .rolAbx _ | .rorZp _ |
    .rorZpx _ | .rorAbs _ | .rorAbx _ | .cmpImm _ | .cmpZp _ | .cmpZpx _ | .cmpAbs _ | .cmpAbx _ | .cmpAby _ |
    .cmpIzx _ | .cmpIzy _ | .cpxImm _ | .cpxZp _ | .cpxAbs _ | .cpyImm _ | .cpyZp _ | .cpyAbs _ | .bpl _ |
    .bmi _ | .bvc _ | .bvs _ | .bcc _ | .bcs _ | .bne _ | .beq _ | .jmpAbs _ | .jmpInd _ | .jsr _ | .rts |
    .clc | .sec | .cli | .sei | .clv | .cld | .sed | .brk | .rti | .nop => false

/-- The instructions that write `X` (R21). -/
def writesX (i : Instr) : Bool :=
  match i with
  | .ldxImm _ | .ldxZp _ | .ldxZpy _ | .ldxAbs _ | .ldxAby _ | .tax | .tsx | .inx | .dex => true
  | .ldaImm _ | .ldaZp _ | .ldaZpx _ | .ldaAbs _ | .ldaAbx _ | .ldaAby _ | .ldaIzx _ | .ldaIzy _ | .ldyImm _ |
    .ldyZp _ | .ldyZpx _ | .ldyAbs _ | .ldyAbx _ | .staZp _ | .staZpx _ | .staAbs _ | .staAbx _ | .staAby _ |
    .staIzx _ | .staIzy _ | .stxZp _ | .stxZpy _ | .stxAbs _ | .styZp _ | .styZpx _ | .styAbs _ | .tay | .txa |
    .tya | .txs | .incZp _ | .incZpx _ | .incAbs _ | .incAbx _ | .decZp _ | .decZpx _ | .decAbs _ | .decAbx _ |
    .iny | .dey | .pha | .pla | .php | .plp | .andImm _ | .andZp _ | .andZpx _ | .andAbs _ | .andAbx _ |
    .andAby _ | .andIzx _ | .andIzy _ | .oraImm _ | .oraZp _ | .oraZpx _ | .oraAbs _ | .oraAbx _ | .oraAby _ |
    .oraIzx _ | .oraIzy _ | .eorImm _ | .eorZp _ | .eorZpx _ | .eorAbs _ | .eorAbx _ | .eorAby _ | .eorIzx _ |
    .eorIzy _ | .bitZp _ | .bitAbs _ | .adcImm _ | .adcZp _ | .adcZpx _ | .adcAbs _ | .adcAbx _ | .adcAby _ |
    .adcIzx _ | .adcIzy _ | .sbcImm _ | .sbcZp _ | .sbcZpx _ | .sbcAbs _ | .sbcAbx _ | .sbcAby _ | .sbcIzx _ |
    .sbcIzy _ | .aslAcc | .aslZp _ | .aslZpx _ | .aslAbs _ | .aslAbx _ | .lsrAcc | .lsrZp _ | .lsrZpx _ |
    .lsrAbs _ | .lsrAbx _ | .rolAcc | .rolZp _ | .rolZpx _ | .rolAbs _ | .rolAbx _ | .rorAcc | .rorZp _ |
    .rorZpx _ | .rorAbs _ | .rorAbx _ | .cmpImm _ | .cmpZp _ | .cmpZpx _ | .cmpAbs _ | .cmpAbx _ | .cmpAby _ |
    .cmpIzx _ | .cmpIzy _ | .cpxImm _ | .cpxZp _ | .cpxAbs _ | .cpyImm _ | .cpyZp _ | .cpyAbs _ | .bpl _ |
    .bmi _ | .bvc _ | .bvs _ | .bcc _ | .bcs _ | .bne _ | .beq _ | .jmpAbs _ | .jmpInd _ | .jsr _ | .rts |
    .clc | .sec | .cli | .sei | .clv | .cld | .sed | .brk | .rti | .nop => false

/-- The instructions that write `Y` (R21). -/
def writesY (i : Instr) : Bool :=
  match i with
  | .ldyImm _ | .ldyZp _ | .ldyZpx _ | .ldyAbs _ | .ldyAbx _ | .tay | .iny | .dey => true
  | .ldaImm _ | .ldaZp _ | .ldaZpx _ | .ldaAbs _ | .ldaAbx _ | .ldaAby _ | .ldaIzx _ | .ldaIzy _ | .ldxImm _ |
    .ldxZp _ | .ldxZpy _ | .ldxAbs _ | .ldxAby _ | .staZp _ | .staZpx _ | .staAbs _ | .staAbx _ | .staAby _ |
    .staIzx _ | .staIzy _ | .stxZp _ | .stxZpy _ | .stxAbs _ | .styZp _ | .styZpx _ | .styAbs _ | .tax | .txa |
    .tya | .tsx | .txs | .incZp _ | .incZpx _ | .incAbs _ | .incAbx _ | .decZp _ | .decZpx _ | .decAbs _ |
    .decAbx _ | .inx | .dex | .pha | .pla | .php | .plp | .andImm _ | .andZp _ | .andZpx _ | .andAbs _ |
    .andAbx _ | .andAby _ | .andIzx _ | .andIzy _ | .oraImm _ | .oraZp _ | .oraZpx _ | .oraAbs _ | .oraAbx _ |
    .oraAby _ | .oraIzx _ | .oraIzy _ | .eorImm _ | .eorZp _ | .eorZpx _ | .eorAbs _ | .eorAbx _ | .eorAby _ |
    .eorIzx _ | .eorIzy _ | .bitZp _ | .bitAbs _ | .adcImm _ | .adcZp _ | .adcZpx _ | .adcAbs _ | .adcAbx _ |
    .adcAby _ | .adcIzx _ | .adcIzy _ | .sbcImm _ | .sbcZp _ | .sbcZpx _ | .sbcAbs _ | .sbcAbx _ | .sbcAby _ |
    .sbcIzx _ | .sbcIzy _ | .aslAcc | .aslZp _ | .aslZpx _ | .aslAbs _ | .aslAbx _ | .lsrAcc | .lsrZp _ |
    .lsrZpx _ | .lsrAbs _ | .lsrAbx _ | .rolAcc | .rolZp _ | .rolZpx _ | .rolAbs _ | .rolAbx _ | .rorAcc |
    .rorZp _ | .rorZpx _ | .rorAbs _ | .rorAbx _ | .cmpImm _ | .cmpZp _ | .cmpZpx _ | .cmpAbs _ | .cmpAbx _ |
    .cmpAby _ | .cmpIzx _ | .cmpIzy _ | .cpxImm _ | .cpxZp _ | .cpxAbs _ | .cpyImm _ | .cpyZp _ | .cpyAbs _ |
    .bpl _ | .bmi _ | .bvc _ | .bvs _ | .bcc _ | .bcs _ | .bne _ | .beq _ | .jmpAbs _ | .jmpInd _ | .jsr _ |
    .rts | .clc | .sec | .cli | .sei | .clv | .cld | .sed | .brk | .rti | .nop => false

/-- The instructions that write `SP` (R22): the pushes and pulls and TXS. -/
def writesSp (i : Instr) : Bool :=
  match i with
  | .pha | .php | .pla | .plp | .jsr _ | .rts | .brk | .rti | .txs => true
  | .ldaImm _ | .ldaZp _ | .ldaZpx _ | .ldaAbs _ | .ldaAbx _ | .ldaAby _ | .ldaIzx _ | .ldaIzy _ | .ldxImm _ |
    .ldxZp _ | .ldxZpy _ | .ldxAbs _ | .ldxAby _ | .ldyImm _ | .ldyZp _ | .ldyZpx _ | .ldyAbs _ | .ldyAbx _ |
    .staZp _ | .staZpx _ | .staAbs _ | .staAbx _ | .staAby _ | .staIzx _ | .staIzy _ | .stxZp _ | .stxZpy _ |
    .stxAbs _ | .styZp _ | .styZpx _ | .styAbs _ | .tax | .tay | .txa | .tya | .tsx | .incZp _ | .incZpx _ |
    .incAbs _ | .incAbx _ | .decZp _ | .decZpx _ | .decAbs _ | .decAbx _ | .inx | .iny | .dex | .dey |
    .andImm _ | .andZp _ | .andZpx _ | .andAbs _ | .andAbx _ | .andAby _ | .andIzx _ | .andIzy _ | .oraImm _ |
    .oraZp _ | .oraZpx _ | .oraAbs _ | .oraAbx _ | .oraAby _ | .oraIzx _ | .oraIzy _ | .eorImm _ | .eorZp _ |
    .eorZpx _ | .eorAbs _ | .eorAbx _ | .eorAby _ | .eorIzx _ | .eorIzy _ | .bitZp _ | .bitAbs _ | .adcImm _ |
    .adcZp _ | .adcZpx _ | .adcAbs _ | .adcAbx _ | .adcAby _ | .adcIzx _ | .adcIzy _ | .sbcImm _ | .sbcZp _ |
    .sbcZpx _ | .sbcAbs _ | .sbcAbx _ | .sbcAby _ | .sbcIzx _ | .sbcIzy _ | .aslAcc | .aslZp _ | .aslZpx _ |
    .aslAbs _ | .aslAbx _ | .lsrAcc | .lsrZp _ | .lsrZpx _ | .lsrAbs _ | .lsrAbx _ | .rolAcc | .rolZp _ |
    .rolZpx _ | .rolAbs _ | .rolAbx _ | .rorAcc | .rorZp _ | .rorZpx _ | .rorAbs _ | .rorAbx _ | .cmpImm _ |
    .cmpZp _ | .cmpZpx _ | .cmpAbs _ | .cmpAbx _ | .cmpAby _ | .cmpIzx _ | .cmpIzy _ | .cpxImm _ | .cpxZp _ |
    .cpxAbs _ | .cpyImm _ | .cpyZp _ | .cpyAbs _ | .bpl _ | .bmi _ | .bvc _ | .bvs _ | .bcc _ | .bcs _ |
    .bne _ | .beq _ | .jmpAbs _ | .jmpInd _ | .clc | .sec | .cli | .sei | .clv | .cld | .sed | .nop => false

/-- The instructions that set `PC` themselves (R126): branches, jumps, calls, returns, BRK. -/
def setsPc (i : Instr) : Bool :=
  match i with
  | .bpl _ | .bmi _ | .bvc _ | .bvs _ | .bcc _ | .bcs _ | .bne _ | .beq _ | .jmpAbs _ | .jmpInd _ | .jsr _ |
    .rts | .rti | .brk => true
  | .ldaImm _ | .ldaZp _ | .ldaZpx _ | .ldaAbs _ | .ldaAbx _ | .ldaAby _ | .ldaIzx _ | .ldaIzy _ | .ldxImm _ |
    .ldxZp _ | .ldxZpy _ | .ldxAbs _ | .ldxAby _ | .ldyImm _ | .ldyZp _ | .ldyZpx _ | .ldyAbs _ | .ldyAbx _ |
    .staZp _ | .staZpx _ | .staAbs _ | .staAbx _ | .staAby _ | .staIzx _ | .staIzy _ | .stxZp _ | .stxZpy _ |
    .stxAbs _ | .styZp _ | .styZpx _ | .styAbs _ | .tax | .tay | .txa | .tya | .tsx | .txs | .incZp _ |
    .incZpx _ | .incAbs _ | .incAbx _ | .decZp _ | .decZpx _ | .decAbs _ | .decAbx _ | .inx | .iny | .dex |
    .dey | .pha | .pla | .php | .plp | .andImm _ | .andZp _ | .andZpx _ | .andAbs _ | .andAbx _ | .andAby _ |
    .andIzx _ | .andIzy _ | .oraImm _ | .oraZp _ | .oraZpx _ | .oraAbs _ | .oraAbx _ | .oraAby _ | .oraIzx _ |
    .oraIzy _ | .eorImm _ | .eorZp _ | .eorZpx _ | .eorAbs _ | .eorAbx _ | .eorAby _ | .eorIzx _ | .eorIzy _ |
    .bitZp _ | .bitAbs _ | .adcImm _ | .adcZp _ | .adcZpx _ | .adcAbs _ | .adcAbx _ | .adcAby _ | .adcIzx _ |
    .adcIzy _ | .sbcImm _ | .sbcZp _ | .sbcZpx _ | .sbcAbs _ | .sbcAbx _ | .sbcAby _ | .sbcIzx _ | .sbcIzy _ |
    .aslAcc | .aslZp _ | .aslZpx _ | .aslAbs _ | .aslAbx _ | .lsrAcc | .lsrZp _ | .lsrZpx _ | .lsrAbs _ |
    .lsrAbx _ | .rolAcc | .rolZp _ | .rolZpx _ | .rolAbs _ | .rolAbx _ | .rorAcc | .rorZp _ | .rorZpx _ |
    .rorAbs _ | .rorAbx _ | .cmpImm _ | .cmpZp _ | .cmpZpx _ | .cmpAbs _ | .cmpAbx _ | .cmpAby _ | .cmpIzx _ |
    .cmpIzy _ | .cpxImm _ | .cpxZp _ | .cpxAbs _ | .cpyImm _ | .cpyZp _ | .cpyAbs _ | .clc | .sec | .cli |
    .sei | .clv | .cld | .sed | .nop => false

/-- The flags the instruction writes (R25). -/
def flagsWritten (i : Instr) : List Flag :=
  match i with
  | .ldaImm _ | .ldaZp _ | .ldaZpx _ | .ldaAbs _ | .ldaAbx _ | .ldaAby _ | .ldaIzx _ | .ldaIzy _ | .ldxImm _ |
    .ldxZp _ | .ldxZpy _ | .ldxAbs _ | .ldxAby _ | .ldyImm _ | .ldyZp _ | .ldyZpx _ | .ldyAbs _ | .ldyAbx _ |
    .tax | .tay | .txa | .tya | .tsx | .pla | .andImm _ | .andZp _ | .andZpx _ | .andAbs _ | .andAbx _ |
    .andAby _ | .andIzx _ | .andIzy _ | .oraImm _ | .oraZp _ | .oraZpx _ | .oraAbs _ | .oraAbx _ | .oraAby _ |
    .oraIzx _ | .oraIzy _ | .eorImm _ | .eorZp _ | .eorZpx _ | .eorAbs _ | .eorAbx _ | .eorAby _ | .eorIzx _ |
    .eorIzy _ => [.Z, .N]
  | .bitZp _ | .bitAbs _ => [.Z, .V, .N]
  | .adcImm _ | .adcZp _ | .adcZpx _ | .adcAbs _ | .adcAbx _ | .adcAby _ | .adcIzx _ | .adcIzy _ | .sbcImm _ |
    .sbcZp _ | .sbcZpx _ | .sbcAbs _ | .sbcAbx _ | .sbcAby _ | .sbcIzx _ | .sbcIzy _ => [.C, .Z, .V, .N]
  | .cmpImm _ | .cmpZp _ | .cmpZpx _ | .cmpAbs _ | .cmpAbx _ | .cmpAby _ | .cmpIzx _ | .cmpIzy _ | .cpxImm _ |
    .cpxZp _ | .cpxAbs _ | .cpyImm _ | .cpyZp _ | .cpyAbs _ | .aslAcc | .aslZp _ | .aslZpx _ | .aslAbs _ |
    .aslAbx _ | .lsrAcc | .lsrZp _ | .lsrZpx _ | .lsrAbs _ | .lsrAbx _ | .rolAcc | .rolZp _ | .rolZpx _ |
    .rolAbs _ | .rolAbx _ | .rorAcc | .rorZp _ | .rorZpx _ | .rorAbs _ | .rorAbx _ | .incZp _ | .incZpx _ |
    .incAbs _ | .incAbx _ | .decZp _ | .decZpx _ | .decAbs _ | .decAbx _ | .inx | .iny | .dex |
    .dey => [.C, .Z, .N]
  | .clc | .sec => [.C]
  | .cli | .sei => [.I]
  | .clv => [.V]
  | .cld | .sed => [.D]
  | .plp | .rti => [.C, .Z, .I, .D, .B, .U, .V, .N]
  | .brk => [.I, .B]
  | .staZp _ | .staZpx _ | .staAbs _ | .staAbx _ | .staAby _ | .staIzx _ | .staIzy _ | .stxZp _ | .stxZpy _ |
    .stxAbs _ | .styZp _ | .styZpx _ | .styAbs _ | .txs | .pha | .php | .bpl _ | .bmi _ | .bvc _ | .bvs _ |
    .bcc _ | .bcs _ | .bne _ | .beq _ | .jmpAbs _ | .jmpInd _ | .jsr _ | .rts | .nop => []

/-- `P` of the eight forms a read instruction can have (R140), each with the operand it reads. -/
def ForReadForms (imm zp zpx : Byte → Instr) (abs abx aby : Word → Instr) (izx izy : Byte → Instr)
    (P : Source → Instr → Prop) : Prop :=
  (∀ v, P (.imm v) (imm v)) ∧ (∀ b, P (.mem (.zp b)) (zp b)) ∧ (∀ b, P (.mem (.zpx b)) (zpx b)) ∧
  (∀ w, P (.mem (.abs w)) (abs w)) ∧ (∀ w, P (.mem (.abx w)) (abx w)) ∧ (∀ w, P (.mem (.aby w)) (aby w)) ∧
  (∀ b, P (.mem (.izx b)) (izx b)) ∧ (∀ b, P (.mem (.izy b)) (izy b))

/-- `P` of the five forms of a shift or rotate (R196), each with the place it works on. -/
def ForShiftForms (acc : Instr) (zp zpx : Byte → Instr) (abs abx : Word → Instr) (P : Place → Instr → Prop) : Prop :=
  P .acc acc ∧ (∀ b, P (.mem (.zp b)) (zp b)) ∧ (∀ b, P (.mem (.zpx b)) (zpx b)) ∧
  (∀ w, P (.mem (.abs w)) (abs w)) ∧ (∀ w, P (.mem (.abx w)) (abx w))

/-- `P` of the four memory forms of INC and DEC (R161), each with the byte it works on. -/
def ForMemForms (zp zpx : Byte → Instr) (abs abx : Word → Instr) (P : MemOperand → Instr → Prop) : Prop :=
  (∀ b, P (.zp b) (zp b)) ∧ (∀ b, P (.zpx b) (zpx b)) ∧ (∀ w, P (.abs w) (abs w)) ∧ (∀ w, P (.abx w) (abx w))

/-- `P` of the three forms of CPX and CPY (R207). -/
def ForShortForms (imm zp : Byte → Instr) (abs : Word → Instr) (P : Source → Instr → Prop) : Prop :=
  (∀ v, P (.imm v) (imm v)) ∧ (∀ b, P (.mem (.zp b)) (zp b)) ∧ (∀ w, P (.mem (.abs w)) (abs w))

/-- The 105 opcode bytes of R121 with no row in the table, in the order the rule lists them. -/
def undefinedOpcodes : List Byte :=
  [0x02, 0x03, 0x04, 0x07, 0x0B, 0x0C, 0x0F, 0x12, 0x13, 0x14, 0x17, 0x1A, 0x1B, 0x1C, 0x1F]
  ++ [0x22, 0x23, 0x27, 0x2B, 0x2F, 0x32, 0x33, 0x34, 0x37, 0x3A, 0x3B, 0x3C, 0x3F, 0x42, 0x43]
  ++ [0x44, 0x47, 0x4B, 0x4F, 0x52, 0x53, 0x54, 0x57, 0x5A, 0x5B, 0x5C, 0x5F, 0x62, 0x63, 0x64]
  ++ [0x67, 0x6B, 0x6F, 0x72, 0x73, 0x74, 0x77, 0x7A, 0x7B, 0x7C, 0x7F, 0x80, 0x82, 0x83, 0x87]
  ++ [0x89, 0x8B, 0x8F, 0x92, 0x93, 0x97, 0x9B, 0x9C, 0x9E, 0x9F, 0xA3, 0xA7, 0xAB, 0xAF, 0xB2]
  ++ [0xB3, 0xB7, 0xBB, 0xBF, 0xC2, 0xC3, 0xC7, 0xCB, 0xCF, 0xD2, 0xD3, 0xD4, 0xD7, 0xDA, 0xDB]
  ++ [0xDC, 0xDF, 0xE2, 0xE3, 0xE7, 0xEB, 0xEF, 0xF2, 0xF3, 0xF4, 0xF7, 0xFA, 0xFB, 0xFC, 0xFF]

/-- Where a branch at `s.pc` goes (R126, R118). -/
def branchPc (taken : Bool) (off : Byte) (s : State) : Word := if taken then s.pc + 2 + sext16 off else s.pc + 2

/-- The table of R126: `PC` after the `tick()` that runs `i`, `s` the state before it, `s.pc` the opcode's
address. -/
def pcAfter (i : Instr) (s : State) : Word :=
  match i with
  | .bpl off => branchPc (!flag .N s.p) off s
  | .bmi off => branchPc (flag .N s.p) off s
  | .bvc off => branchPc (!flag .V s.p) off s
  | .bvs off => branchPc (flag .V s.p) off s
  | .bcc off => branchPc (!flag .C s.p) off s
  | .bcs off => branchPc (flag .C s.p) off s
  | .bne off => branchPc (!flag .Z s.p) off s
  | .beq off => branchPc (flag .Z s.p) off s
  | .jmpAbs addr => addr
  | .jsr addr => addr
  | .jmpInd ptr => (readJmpPointer ptr (afterFetches 3 s)).1
  | .rts => mkWord (byteAt s (popAddr s 1)) (byteAt s (popAddr s 0)) + 1
  | .rti => mkWord (byteAt s (popAddr s 2)) (byteAt s (popAddr s 1))
  | .brk => if flag .I s.p then s.pc + 1 else wordAt s 0xFFFE
  | .tax | .tay | .txa | .tya | .tsx | .txs | .inx | .iny | .dex | .dey | .pha | .pla | .php | .plp | .aslAcc |
    .lsrAcc | .rolAcc | .rorAcc | .clc | .sec | .cli | .sei | .clv | .cld | .sed | .nop => s.pc + 1
  | .ldaImm _ | .ldaZp _ | .ldaZpx _ | .ldaIzx _ | .ldaIzy _ | .ldxImm _ | .ldxZp _ | .ldxZpy _ | .ldyImm _ |
    .ldyZp _ | .ldyZpx _ | .staZp _ | .staZpx _ | .staIzx _ | .staIzy _ | .stxZp _ | .stxZpy _ | .styZp _ |
    .styZpx _ | .incZp _ | .incZpx _ | .decZp _ | .decZpx _ | .andImm _ | .andZp _ | .andZpx _ | .andIzx _ |
    .andIzy _ | .oraImm _ | .oraZp _ | .oraZpx _ | .oraIzx _ | .oraIzy _ | .eorImm _ | .eorZp _ | .eorZpx _ |
    .eorIzx _ | .eorIzy _ | .bitZp _ | .adcImm _ | .adcZp _ | .adcZpx _ | .adcIzx _ | .adcIzy _ | .sbcImm _ |
    .sbcZp _ | .sbcZpx _ | .sbcIzx _ | .sbcIzy _ | .aslZp _ | .aslZpx _ | .lsrZp _ | .lsrZpx _ | .rolZp _ |
    .rolZpx _ | .rorZp _ | .rorZpx _ | .cmpImm _ | .cmpZp _ | .cmpZpx _ | .cmpIzx _ | .cmpIzy _ | .cpxImm _ |
    .cpxZp _ | .cpyImm _ | .cpyZp _ => s.pc + 2
  | .ldaAbs _ | .ldaAbx _ | .ldaAby _ | .ldxAbs _ | .ldxAby _ | .ldyAbs _ | .ldyAbx _ | .staAbs _ | .staAbx _ |
    .staAby _ | .stxAbs _ | .styAbs _ | .incAbs _ | .incAbx _ | .decAbs _ | .decAbx _ | .andAbs _ | .andAbx _ |
    .andAby _ | .oraAbs _ | .oraAbx _ | .oraAby _ | .eorAbs _ | .eorAbx _ | .eorAby _ | .bitAbs _ | .adcAbs _ |
    .adcAbx _ | .adcAby _ | .sbcAbs _ | .sbcAbx _ | .sbcAby _ | .aslAbs _ | .aslAbx _ | .lsrAbs _ | .lsrAbx _ |
    .rolAbs _ | .rolAbx _ | .rorAbs _ | .rorAbx _ | .cmpAbs _ | .cmpAbx _ | .cmpAby _ | .cpxAbs _ |
    .cpyAbs _ => s.pc + 3

/-- What every exception entry does (R259): the return address and the flags on the stack, `PC` from the vector,
and nothing else but `P`, which each entry changes in its own way, and the host's sequence. -/
def EnteredFrom (s t : State) (ret vector : Word) : Prop :=
  t.sp = s.sp - 3 ∧ t.pc = wordAt s vector ∧
  byteAt t (pushAddr s 0) = hiByte ret ∧ byteAt t (pushAddr s 1) = loByte ret ∧
  byteAt t (pushAddr s 2) = s.p ||| s.config.forceMask ∧
  (∀ b, b ≠ pushAddr s 0 → b ≠ pushAddr s 1 → b ≠ pushAddr s 2 → byteAt t b = byteAt s b) ∧
  t.a = s.a ∧ t.x = s.x ∧ t.y = s.y ∧ t.bank = s.bank ∧ t.rom = s.rom ∧ t.cart = s.cart ∧ t.dirty = s.dirty ∧
  t.fatal = s.fatal ∧ t.draws = s.draws ∧ t.diag = s.diag ∧ t.config = s.config

/-- `i` reads its operand and puts it in a register with `SetZN`; nothing else changes (R140). -/
def LoadsInto (set : State → Byte → State) (m : Source) (i : Instr) : Prop :=
  ∀ s, exec i s =
    .next ((set (loadOperand m s).2 (loadOperand m s).1).setP (setZN (loadOperand m s).1 s.p))

/-- `i` stores a register at its effective address; nothing else changes (R143). -/
def StoresFrom (reg : State → Byte) (m : MemOperand) (i : Instr) : Prop :=
  ∀ s, exec i s = .next (writeByte (effAddr m s) (reg s) s)

/-- `i` replaces `A` by a function of `A` and its operand, with `SetZN`; nothing else changes (R181). -/
def CombinesWithA (f : Byte → Byte → Byte) (m : Source) (i : Instr) : Prop :=
  ∀ s, exec i s =
    .next (((loadOperand m s).2.setA (f s.a (loadOperand m s).1)).setP (setZN (f s.a (loadOperand m s).1) s.p))

/-- `i` replaces the byte at its effective address by `r` of it, with Carry set as `c` of the parameters and it says
and `SetZN` of the result; nothing else changes (R160, R161). -/
def StepsMemory (r : Byte → Byte) (c : Config → Byte → Bool) (m : MemOperand) (i : Instr) : Prop :=
  ∀ s, exec i s = .next (writeByte (effAddr m s) (r (byteAt s (effAddr m s)))
    ((afterRead (effAddr m s) s).setP
      (setZN (r (byteAt s (effAddr m s))) (putFlag .C (c s.config (byteAt s (effAddr m s))) s.p))))

/-- `i` replaces the byte in its place by `r` of the parameters, it and the old Carry; Carry becomes its bit 0, `SetZN`
of the result; nothing else changes (R195). -/
def ShiftsBy (r : Config → Byte → Bool → Byte) (m : Place) (i : Instr) : Prop :=
  ∀ s, exec i s =
    match m with
    | .acc => .next ((s.setA (r s.config s.a (flag .C s.p))).setP
        (setZN (r s.config s.a (flag .C s.p)) (putFlag .C (s.a.getLsbD 0) s.p)))
    | .mem o => .next (writeByte (effAddr o s) (r s.config (byteAt s (effAddr o s)) (flag .C s.p))
        ((afterRead (effAddr o s) s).setP (setZN (r s.config (byteAt s (effAddr o s)) (flag .C s.p))
          (putFlag .C ((byteAt s (effAddr o s)).getLsbD 0) s.p))))

/-- `i` adds, or with `sub` subtracts, its operand with Carry (R185 to R187): the result modulo 256, Carry as the
unsigned carry out or the absence of a borrow, Overflow as the signed overflow, Zero and Negative from the result;
nothing else changes. -/
def AddsWithCarry (sub : Bool) (m : Source) (i : Instr) : Prop :=
  ∀ s, ∃ t, exec i s = .next t ∧
    (let v := (loadOperand m s).1
     let c : Nat := if flag .C s.p then 1 else 0
     let n : Int := if sub then s.a.toInt - v.toInt - (1 - c) else s.a.toInt + v.toInt + c
     t = ((loadOperand m s).2.setA t.a).setP t.p ∧
     (sub = false → t.a.toNat = (s.a.toNat + v.toNat + c) % 256 ∧
       flag .C t.p = decide (255 < s.a.toNat + v.toNat + c)) ∧
     (sub = true → t.a.toNat = (s.a.toNat + 255 - v.toNat + c) % 256 ∧
       flag .C t.p = decide (v.toNat + (1 - c) ≤ s.a.toNat)) ∧
     flag .V t.p = decide (n < -128 ∨ 127 < n) ∧
     flag .Z t.p = decide (t.a = 0) ∧ flag .N t.p = t.a.getLsbD 7 ∧
     flag .I t.p = flag .I s.p ∧ flag .D t.p = flag .D s.p ∧ flag .B t.p = flag .B s.p ∧ flag .U t.p = flag .U s.p)

/-- `i` compares a register with its operand (R205): Carry is unsigned "not below", Zero equality, Negative bit 7 of
the difference; nothing else changes. -/
def ComparesWith (reg : State → Byte) (m : Source) (i : Instr) : Prop :=
  ∀ s, ∃ t, exec i s = .next t ∧
    (let v := (loadOperand m s).1
     t = (loadOperand m s).2.setP t.p ∧
     flag .C t.p = decide (v.toNat ≤ (reg s).toNat) ∧ flag .Z t.p = decide (reg s = v) ∧
     flag .N t.p = decide (128 ≤ ((reg s).toNat + 256 - v.toNat) % 256) ∧
     ∀ f, f ≠ .C → f ≠ .Z → f ≠ .N → flag f t.p = flag f s.p)

/-- `n` host actions in a row, as the state's own sequence gives them (R270), stopping where the machine stops. -/
def steps : Nat → State → Host.Outcome State Fault Refusal
  | 0, s => .next s
  | n + 1, s =>
    match step s with
    | .next t => steps n t
    | .fault r => .fault r
    | .refused r => .refused r

/-- `i` executed `n` times in a row. -/
def repeatExec (i : Instr) : Nat → State → Option State
  | 0, s => some s
  | n + 1, s =>
    match exec i s with
    | .next t => repeatExec i n t
    | .fault _ | .refused _ => none

end Sys2Proof.Machine
end

