-- ==== Sys2Proof/Certificates/Slice0/Obligations.lean ====
section
/-! DEFINITION. The statements for the provers, in the terms of `Sys2Proof/Safety.lean`. Each docstring names the rule
of spec/ it formalises, or says that the statement is the model's own choice. In a statement about `exec`, `s` is the
state in which every byte of the instruction has been fetched and `PC` is past it (notes/assumptions/10.md). A statement
holds for every value of the parameters of R11 (`State.config`, notes/assumptions/5.md) unless it says otherwise. A
premise that a store is `wf` is the model's own canonical form of a store (notes/assumptions/1.md). -/

open Sys2Proof Sys2Proof.Machine

/-- Words written out from the grid of R120, one per family, decode to their instruction (R100, R101); the first two
are the two the document itself gives. -/
def Obligations.SpecWordsDecode : Prop :=
  decode [0xA9, 0x05, 0x77] = .ok (.ldaImm 0x05, [0x77]) ∧
  decode [0x8D, 0x00, 0x60] = .ok (.staAbs 0x6000, []) ∧
  decode [0xBA] = .ok (.tsx, []) ∧
  decode [0xD6, 0x12] = .ok (.decZpx 0x12, []) ∧
  decode [0x28] = .ok (.plp, []) ∧
  decode [0xF1, 0x34] = .ok (.sbcIzy 0x34, []) ∧
  decode [0x7E, 0xCD, 0xAB] = .ok (.rorAbx 0xABCD, []) ∧
  decode [0xCC, 0x34, 0x12] = .ok (.cpyAbs 0x1234, []) ∧
  decode [0x70, 0x80] = .ok (.bvs 0x80, []) ∧
  decode [0x6C, 0xFF, 0x02] = .ok (.jmpInd 0x02FF, []) ∧
  decode [0x20, 0x34, 0x12] = .ok (.jsr 0x1234, []) ∧
  decode [0x40] = .ok (.rti, []) ∧
  decode [0x1A, 0x00] = .error (.unknownOpcode 0x1A)

/-- Decode and encode agree, for every instruction with every operand, whatever follows it and whatever `OPCODE_SET`
is (R100, R101, R120). -/
def Obligations.EncodedInstructionDecodesBack : Prop :=
  ∀ (absent : List Byte) (i : Instr) (rest : List Byte), wellFormedIn absent i = true →
    decodeWith absent (encode i ++ rest) = .ok (i, rest)

/-- The other direction: no byte is dropped or read twice, and every word has one meaning (R100, R101, R123). -/
def Obligations.DecodedBytesEncodeBack : Prop :=
  ∀ (absent bytes : List Byte) (i : Instr) (rest : List Byte),
    decodeWith absent bytes = .ok (i, rest) → bytes = encode i ++ rest ∧ wellFormedIn absent i = true

/-- A step runs the decoded instruction (R102, R271). `exec` starts with `PC` past the whole instruction, which is
this model's form of R103 (notes/assumptions/10.md); the host's sequence in the state is the model's
(notes/assumptions/7.md). -/
def Obligations.StepRunsDecodedInstruction : Prop :=
  ∀ (s : State) (i : Instr) (rest : List Byte), s.running → s.nextAction = .tick →
    decodeWith s.config.absentOpcodes (bytesAtPc s) = .ok (i, rest) →
    step s = exec i (afterFetches (instrLength i) s.takeAction)

/-- The fetches of an instruction (R104): `PC` wraps at 65536 (R23), reads have no side effect but a draw and a
diagnostic (R85). -/
def Obligations.FetchMovesPcPastBytes : Prop :=
  ∀ (n : Nat) (s : State),
    (afterFetches n s).pc.toNat = (s.pc.toNat + n) % 65536 ∧ (afterFetches n s).a = s.a ∧ (afterFetches n s).x = s.x ∧
    (afterFetches n s).y = s.y ∧ (afterFetches n s).sp = s.sp ∧ (afterFetches n s).p = s.p ∧
    (afterFetches n s).bank = s.bank ∧ (afterFetches n s).ram = s.ram ∧ (afterFetches n s).rom = s.rom ∧
    (afterFetches n s).cart = s.cart ∧ (afterFetches n s).dirty = s.dirty ∧ (afterFetches n s).fatal = s.fatal ∧
    (afterFetches n s).host = s.host ∧ (afterFetches n s).config = s.config ∧
    s.draws ≤ (afterFetches n s).draws ∧ (afterFetches n s).draws ≤ s.draws + n ∧
    ∀ b : Word, b ≠ 0x6009 → byteAt (afterFetches n s) b = byteAt s b

/-- R121 (and R261): the 105 unknown opcodes are exactly those of the list, and each is a one-byte no-op that logs; so
is an opcode outside `OPCODE_SET` (R11). MODEL'S CHOICE: that a `Log` is kept as an entry of `diag`
(notes/assumptions/8.md), and that the host's sequence is in the state (7.md). -/
def Obligations.UnknownOpcodeIsOneByteNoOp : Prop :=
  (∀ op : Byte, decodeOpcode [] op = none ↔ op ∈ undefinedOpcodes) ∧
  (∀ (absent : List Byte) (op : Byte), decodeOpcode absent op = none ↔ op ∈ undefinedOpcodes ∨ op ∈ absent) ∧
  undefinedOpcodes.length = 105 ∧
  ∀ s : State, s.running → s.nextAction = .tick → decodeOpcode s.config.absentOpcodes (byteAt s s.pc) = none →
    ∃ t, step s = .next t ∧ t.pc = s.pc + 1 ∧ t.a = s.a ∧ t.x = s.x ∧ t.y = s.y ∧ t.sp = s.sp ∧ t.p = s.p ∧
      t.bank = s.bank ∧ t.ram = s.ram ∧ t.rom = s.rom ∧ t.cart = s.cart ∧ t.dirty = s.dirty ∧ t.fatal = s.fatal ∧
      t.host = s.takeAction.host ∧ t.config = s.config ∧
      t.diag = .unknownOpcode (byteAt s s.pc) :: (afterFetches 1 s).diag

/-- The table of R126, row by row (`pcAfter` writes the table out, for the whole `tick()`, from the state before it).
-/
def Obligations.PcAdvancesByTable : Prop :=
  (∀ (s : State) (i : Instr) (rest : List Byte), s.running → s.nextAction = .tick →
    decodeWith s.config.absentOpcodes (bytesAtPc s) = .ok (i, rest) → ∃ t, step s = .next t ∧ t.pc = pcAfter i s) ∧
  (∀ s : State, s.running → s.nextAction = .tick → decodeOpcode s.config.absentOpcodes (byteAt s s.pc) = none →
    ∃ t, step s = .next t ∧ t.pc = s.pc + 1)

/-- Totality: "One call, one instruction, always terminates" (R271), nothing but FATAL stops the machine (R262), and
FATAL comes only from a write to slot 8 (R78, R251). -/
def Obligations.RunningMachineAlwaysSteps : Prop :=
  (∀ s : State, (s.running → ∃ t, step s = .next t) ∧ (step s = .fault .fatalStop ↔ s.fatal = true)) ∧
  ∀ s t : State, s.running → step s = .next t →
    (t.fatal = true ↔ s.nextAction = .tick ∧ ∃ i rest, decodeWith s.config.absentOpcodes (bytesAtPc s) = .ok (i, rest) ∧
      dataStore i (afterFetches (instrLength i) s.takeAction) = some 0x6008)

/-- MODEL'S CHOICE (notes/assumptions/9.md, 11.md): `withFetchWord` stands for loading a program; the very next step
runs the placed instruction. -/
def Obligations.FetchWordPlacementRunsIt : Prop :=
  ∀ (s : State) (nbits w : Nat) (i : Instr) (rest : List Byte), s.running → s.ram.wf → s.rom.wf →
    decodeWith s.config.absentOpcodes (tableBytes nbits w) = .ok (i, rest) →
    step (s.withFetchWord nbits w) = exec i (afterFetches (instrLength i) (s.withFetchWord nbits w).takeAction)

/-- R59, with the effects by address of R85. The value of a read is `byteAt` and its effect `afterRead`, which in the
window is the `afterRegRead` of the slot; the two fields it may change are the MODEL'S own (notes/assumptions/4.md,
8.md). -/
def Obligations.ByteReadRouted : Prop :=
  ∀ (s : State) (a : Word),
    readByte a s = (byteAt s a, afterRead a s) ∧
    (0x8000 ≤ a.toNat → (readByte a s).1 = s.rom.read (a.toNat - 0x8000)) ∧
    (0x6000 ≤ a.toNat ∧ a.toNat ≤ 0x600F → (readByte a s).1 = regRead (a.toNat % 16) s) ∧
    (a.toNat < 0x6000 ∨ 0x600F < a.toNat ∧ a.toNat < 0x8000 → (readByte a s).1 = s.ram.read a.toNat) ∧
    (a.toNat < 0x6000 ∨ 0x600F < a.toNat → afterRead a s = s) ∧
    (0x6000 ≤ a.toNat ∧ a.toNat ≤ 0x600F → afterRead a s = afterRegRead (a.toNat % 16) s) ∧
    afterRead a s = (s.setDraws (afterRead a s).draws).setDiag (afterRead a s).diag

/-- R60. MODEL'S CHOICE: that a `Log` is kept as an entry of `diag` (notes/assumptions/8.md), as the clause for ROM
has it. -/
def Obligations.ByteWriteRouted : Prop :=
  ∀ (s : State) (a : Word) (v : Byte),
    (0x8000 ≤ a.toNat → writeByte a v s = s.setDiag (.romWrite a :: s.diag)) ∧
    (0x6000 ≤ a.toNat ∧ a.toNat ≤ 0x600F → writeByte a v s = regWrite (a.toNat % 16) v s) ∧
    (0x6010 ≤ a.toNat ∧ a.toNat ≤ 0x7010 → writeByte a v s = (s.setRam (s.ram.write a.toNat v)).setDirty true) ∧
    (a.toNat < 0x6000 ∨ 0x7010 < a.toNat ∧ a.toNat < 0x8000 → writeByte a v s = s.setRam (s.ram.write a.toNat v))

/-- R70, slot by slot (R71 to R82 say the same). MODEL'S CHOICE: the draw counter of the slot 9 clauses, whose bytes
are the free values `Config.randomByte` (notes/assumptions/4.md), their range by `RNG_RANGE` (5.md), and the
diagnostics recorded in `diag` (8.md). -/
def Obligations.RegisterBankTable : Prop :=
  ∀ (s : State) (v : Byte),
    [0, 1, 2, 3, 4, 5, 6, 7, 15].map (fun i => regRead i s) =
      [s.bank.portB, s.bank.portA, s.bank.keyboard, s.bank.mouseX, s.bank.mouseY, s.bank.cartLo, s.bank.cartMid,
        s.bank.cartHi, s.bank.interruptId] ∧
    regRead 8 s = s.cart.read (s.bank.cartHi.toNat * 65536 + s.bank.cartMid.toNat * 256 + s.bank.cartLo.toNat) ∧
    (∀ i ∈ [0, 1, 2, 3, 4, 5, 6, 7, 8, 15], afterRegRead i s = s) ∧
    (s.config.rngRange = .full → regRead 9 s = Config.randomByte s.draws) ∧
    (s.config.rngRange = .below255 → regRead 9 s ≠ 0xFF) ∧ afterRegRead 9 s = s.setDraws (s.draws + 1) ∧
    (∀ i ∈ [10, 11, 12, 13, 14], regRead i s = 0 ∧ afterRegRead i s = s.setDiag (.invalidRegister i :: s.diag) ∧
      regWrite i v s = s.setDiag (.invalidRegister i :: s.diag)) ∧
    regWrite 0 v s = s.setBank { s.bank with portB := v } ∧ regWrite 1 v s = s.setBank { s.bank with portA := v } ∧
    regWrite 2 v s = s.setBank { s.bank with keyboard := v } ∧ regWrite 3 v s = s.setBank { s.bank with mouseX := v } ∧
    regWrite 4 v s = s.setBank { s.bank with mouseY := v } ∧ regWrite 5 v s = s.setBank { s.bank with cartLo := v } ∧
    regWrite 6 v s = s.setBank { s.bank with cartMid := v } ∧ regWrite 7 v s = s.setBank { s.bank with cartHi := v } ∧
    regWrite 8 v s = s.setFatal true ∧ regWrite 9 v s = s.setDiag (.rngWrite :: s.diag) ∧
    regWrite 15 v s = s.setBank { s.bank with interruptId := v }

/-- R61, R62 and the instances R63 (`0x7FFF`), R64 (`0xFFFF`), R83 (`0x600F`), for a machine that runs. MODEL'S
CHOICE: that a `Log` is kept as an entry of `diag` (notes/assumptions/8.md), as the writes at `0x7FFF` and `0xFFFF`
have it. -/
def Obligations.WordAccess : Prop :=
  ∀ (s : State) (a w : Word),
    ((readWord a s).1.toNat = (byteAt s (a + 1)).toNat * 256 + (byteAt s a).toNat ∧
      (readWord a s).2 = afterRead (a + 1) (afterRead a s)) ∧
    (s.running → a ≠ 0x6008 → writeWord a w s = writeByte (a + 1) ((w >>> 8).setWidth 8)
      (writeByte a (w.setWidth 8) s)) ∧
    writeWord 0x6008 w s = s.setFatal true ∧
    (s.running → writeWord 0x6007 w s = (s.setBank { s.bank with cartHi := w.setWidth 8 }).setFatal true) ∧
    (readWord 0x7FFF s).1.toNat = (s.rom.read 0).toNat * 256 + (s.ram.read 0x7FFF).toNat ∧
    (s.running → writeWord 0x7FFF w s =
      (s.setRam (s.ram.write 0x7FFF (w.setWidth 8))).setDiag (.romWrite 0x8000 :: s.diag)) ∧
    (readWord 0xFFFF s).1.toNat = (s.ram.read 0).toNat * 256 + (s.rom.read 0x7FFF).toNat ∧
    (s.running → writeWord 0xFFFF w s =
      (s.setDiag (.romWrite 0xFFFF :: s.diag)).setRam (s.ram.write 0 ((w >>> 8).setWidth 8))) ∧
    (readWord 0x600F s).1.toNat = (s.ram.read 0x6010).toNat * 256 + s.bank.interruptId.toNat ∧
    (s.running → writeWord 0x600F w s =
      ((s.setBank { s.bank with interruptId := w.setWidth 8 }).setRam
        (s.ram.write 0x6010 ((w >>> 8).setWidth 8))).setDirty true)

/-- R86 (c): "every read returns the value of the most recent write to that address", through two instructions. -/
def Obligations.StoredByteLoadsBack : Prop :=
  ∀ (s : State) (addr : Word), s.ram.wf →
    (addr.toNat < 0x6008 ∨ 0x600F ≤ addr.toNat ∧ addr.toNat < 0x8000) →
    ∃ t u, exec (.staAbs addr) s = .next t ∧ exec (.ldxAbs addr) t = .next u ∧ u.x = s.a ∧ u.ram = t.ram ∧
      u.bank = t.bank ∧ (byteAt u addr = s.a)

/-- R55, for every form that stores at an effective address (`dataStore`). MODEL'S CHOICE: that a `Log` is kept as an
entry of `diag` (notes/assumptions/8.md). -/
def Obligations.RomWriteChangesNothing : Prop :=
  (∀ (s : State) (a : Word), 0x8000 ≤ a.toNat → byteAt s a = s.rom.read (a.toNat - 0x8000)) ∧
  ∀ (i : Instr) (s : State) (a : Word), dataStore i s = some a → 0x8000 ≤ a.toNat →
    ∃ t, exec i s = .next t ∧ t.ram = s.ram ∧ t.rom = s.rom ∧ t.cart = s.cart ∧ t.bank = s.bank ∧ t.dirty = s.dirty ∧
      t.fatal = s.fatal ∧ byteAt t a = byteAt s a ∧ t.diag = .romWrite a :: s.diag ∧ t.pc = s.pc

/-- R54, over every instruction: a read or a write elsewhere never changes `DIRTY`. -/
def Obligations.DirtySetExactlyByWindowWrites : Prop :=
  ∀ (i : Instr) (s : State), ∃ t, exec i s = .next t ∧
    (t.dirty = true ↔ s.dirty = true ∨ ∃ a ∈ storedAddrs i s, 0x6010 ≤ a.toNat ∧ a.toNat ≤ 0x7010)

/-- R34: "Cleared by: the host/renderer only". The host's sequence in the state is the model's
(notes/assumptions/7.md). -/
def Obligations.DirtyClearedOnlyByHost : Prop :=
  ∀ s t : State, step s = .next t → s.dirty = true → t.dirty = false →
    s.nextAction = .event .clearDirty

/-- R67 (and R33 for the cartridge image), for every step. That the images are held in the state is the model's choice
(notes/assumptions/14.md). -/
def Obligations.ImagesNeverChange : Prop :=
  ∀ s t : State, step s = .next t → t.rom = s.rom ∧ t.cart = s.cart ∧
    ∀ a : Word, 0x8000 ≤ a.toNat → byteAt t a = byteAt s a

/-- MODEL'S CHOICE of form (notes/assumptions/1.md): the canonical form makes equal memories equal data. -/
def Obligations.EqualContentsAreEqualData : Prop :=
  ∀ m n : Memory, m.wf → n.wf → (∀ a, m.read a = n.read a) → m = n

/-- The invariant of the state under every step: instructions, unknown opcodes and host actions. R53: "An access in
the window never touches RAM". MODEL'S CHOICE: the canonical form (rising addresses, no listed zero,
notes/assumptions/1.md), and that the images and the parameters are held in the state (14.md). -/
def Obligations.StepKeepsStoresWellFormed : Prop :=
  ∀ s t : State, step s = .next t → t.config = s.config ∧ (s.wf → t.wf)

/-- The invariant at `State.reset`. That the stores list nothing is the MODEL'S CHOICE (notes/assumptions/1.md). -/
def Obligations.ResetStoresWellFormed : Prop :=
  State.reset.wf ∧ State.reset.running

/-- R290 and R291. The host's sequence, the draw counter and the diagnostics, unchanged here but for the action taken,
are the model's own fields (notes/assumptions/4.md, 7.md, 8.md). -/
def Obligations.ResetAction : Prop :=
  (∀ s : State, s.running → s.nextAction = .event .reset → ∃ t, step s = .next t ∧
    t.a = 0x00 ∧ t.x = 0x00 ∧ t.y = 0x00 ∧ t.sp = 0xFF ∧ t.p = 0x34 ∧
    t.pc.toNat = (s.rom.read 0x7FFD).toNat * 256 + (s.rom.read 0x7FFC).toNat ∧
    t.ram = s.ram ∧ t.bank = s.bank ∧ t.dirty = s.dirty ∧ t.fatal = s.fatal ∧ t.rom = s.rom ∧ t.cart = s.cart ∧
    t.draws = s.draws ∧ t.diag = s.diag ∧ t.host = s.takeAction.host ∧ t.config = s.config) ∧
  (∀ s : State, resetCpu (resetCpu s) = resetCpu s) ∧
  (∀ s : State, s.fatal = true → s.nextAction = .event .reset → step s = .fault .fatalStop)

/-- The CPU registers are R36's. The MODEL'S CHOICE are the launch values: the blank RAM and images
(notes/assumptions/1.md), the zero bank (2.md), `DIRTY` false (3.md), and the parameter values (5.md). -/
def Obligations.ResetStateValues : Prop :=
  State.reset.a = 0x00 ∧ State.reset.x = 0x00 ∧ State.reset.y = 0x00 ∧ State.reset.sp = 0xFF ∧
  State.reset.p = 0x34 ∧ State.reset.pc = wordAt State.reset 0xFFFC ∧ State.reset.fatal = false ∧
  State.reset.config = platform ∧ resetCpu State.reset = State.reset ∧
  State.reset.ram = [] ∧ State.reset.rom = [] ∧ State.reset.cart = [] ∧
  State.reset.bank = ⟨0x00, 0x00, 0x00, 0x00, 0x00, 0x00, 0x00, 0x00, 0x00⟩ ∧ State.reset.dirty = false

/-- R253 with the entry of R259 (`EnteredFrom`). The host's sequence in the state is the model's
(notes/assumptions/7.md). -/
def Obligations.InterruptRequest : Prop :=
  ∀ s : State, s.running → s.ram.wf → s.nextAction = .event .interruptRequest →
    (flag .I s.p = true → step s = .next s.takeAction) ∧
    (flag .I s.p = false → ∃ t, step s = .next t ∧ EnteredFrom s t s.pc 0xFFFE ∧ t.p = s.p ||| 0x04 ∧
      t.host = s.takeAction.host)

/-- R257 (b): the first enters the handler and sets `P.I`, the second is dropped. -/
def Obligations.SecondRequestIsDropped : Prop :=
  ∀ s : State, s.running → s.nextAction = .event .interruptRequest →
    s.takeAction.nextAction = .event .interruptRequest →
    ∃ t, step s = .next t ∧ step t = .next t.takeAction

/-- R254 with the entry of R259 (`EnteredFrom`). The host's sequence in the state is the model's
(notes/assumptions/7.md). -/
def Obligations.NonMaskableInterrupt : Prop :=
  ∀ s : State, s.running → s.ram.wf → s.nextAction = .event .nonMaskableInterrupt →
    ∃ t, step s = .next t ∧ EnteredFrom s t s.pc 0xFFFA ∧ t.p = s.p ∧ t.host = s.takeAction.host

/-- R237 with the entry of R259 (`EnteredFrom`); `s` is the state after the opcode fetch (R103). -/
def Obligations.BreakEntersHandler : Prop :=
  opcode .brk = 0x00 ∧
  ∀ s : State, s.ram.wf →
    (flag .I s.p = true → exec .brk s = .next s) ∧
    (flag .I s.p = false → ∃ t, exec .brk s = .next t ∧ EnteredFrom s t (s.pc + 1) 0xFFFE ∧ t.p = s.p ||| 0x14 ∧
      t.host = s.host)

/-- R260: RTI "restores `PC` exactly" and "all of `P` from the saved byte, except that the forced bits come back as
0"; the forced bits are those of `FORCE_MASK`, whatever it is. -/
def Obligations.HandlerReturnResumes : Prop :=
  ∀ (s t : State), s.ram.wf → t.config = s.config →
    ((flag .I s.p = false → t.sp = (interruptRequest s).sp → t.ram = (interruptRequest s).ram →
        ∃ u, exec .rti t = .next u ∧ u.pc = s.pc ∧ u.sp = s.sp ∧ u.p = s.p &&& ~~~s.config.forceMask ∧ u.ram = t.ram) ∧
     (t.sp = (nonMaskableInterrupt s).sp → t.ram = (nonMaskableInterrupt s).ram →
        ∃ u, exec .rti t = .next u ∧ u.pc = s.pc ∧ u.sp = s.sp ∧ u.p = s.p &&& ~~~s.config.forceMask ∧ u.ram = t.ram) ∧
     (∀ h, flag .I s.p = false → exec .brk s = .next h → t.sp = h.sp → t.ram = h.ram →
        ∃ u, exec .rti t = .next u ∧ u.pc = s.pc + 1 ∧ u.sp = s.sp ∧ u.p = s.p &&& ~~~s.config.forceMask ∧
          u.ram = t.ram))

/-- R273, and R66 for the last clause. The host's sequence in the state is the model's (notes/assumptions/7.md). -/
def Obligations.HostFieldWrites : Prop :=
  (∀ (s : State) (v : Byte), s.running →
    (s.nextAction = .event (.writeKeyboard v) →
      step s = .next (s.takeAction.setBank { s.bank with keyboard := v })) ∧
    (s.nextAction = .event (.writeMouseX v) →
      step s = .next (s.takeAction.setBank { s.bank with mouseX := v })) ∧
    (s.nextAction = .event (.writeMouseY v) →
      step s = .next (s.takeAction.setBank { s.bank with mouseY := v })) ∧
    (s.nextAction = .event (.writeInterruptId v) →
      step s = .next (s.takeAction.setBank { s.bank with interruptId := v })) ∧
    (s.nextAction = .event .clearDirty → step s = .next (s.takeAction.setDirty false))) ∧
  ∀ (s : State) (e : HostEvent),
    (hostEffect e s).bank.portB = s.bank.portB ∧ (hostEffect e s).bank.portA = s.bank.portA ∧
    (hostEffect e s).bank.cartLo = s.bank.cartLo ∧ (hostEffect e s).bank.cartMid = s.bank.cartMid ∧
    (hostEffect e s).bank.cartHi = s.bank.cartHi

/-- R262: "a model gives a FATAL state no successor" and "the write itself stores nothing". The flag results of the
form are those of its own statement, which holds at this address too. -/
def Obligations.FatalWriteStopsMachine : Prop :=
  (∀ (i : Instr) (s : State), dataStore i s = some 0x6008 → ∃ t, exec i s = .next t ∧ t.fatal = true ∧ t.ram = s.ram ∧
    t.bank = s.bank ∧ t.rom = s.rom ∧ t.cart = s.cart ∧ t.dirty = s.dirty ∧ t.pc = s.pc ∧ t.a = s.a ∧ t.x = s.x ∧
    t.y = s.y ∧ t.sp = s.sp ∧ ∀ f, f ∉ flagsWritten i → flag f t.p = flag f s.p) ∧
  ∀ s : State, s.fatal = true → step s = .fault .fatalStop

/-- R251: no instruction traps, and Fatal is raised exactly by the memory forms of STA, STX, STY, INC, DEC, ASL, LSR,
ROL, ROR (`dataStore`) at `0x6008`. -/
def Obligations.OnlyCartDataWritesAreFatal : Prop :=
  ∀ (i : Instr) (s : State), s.running →
    ∃ t, exec i s = .next t ∧ (t.fatal = true ↔ dataStore i s = some 0x6008)

/-- The "written by" column of R21 and R22 (`writesA`, `writesX`, `writesY`, `writesSp`), for every form. -/
def Obligations.RegistersChangeOnlyAsListed : Prop :=
  ∀ (i : Instr) (s : State), ∃ t, exec i s = .next t ∧ (writesA i = false → t.a = s.a) ∧
    (writesX i = false → t.x = s.x) ∧ (writesY i = false → t.y = s.y) ∧ (writesSp i = false → t.sp = s.sp) ∧
    (setsPc i = false → t.pc = s.pc)

/-- The "written by" column of R25 (`flagsWritten`): "A flag not listed for an instruction is unchanged by it". -/
def Obligations.FlagsChangeOnlyAsListed : Prop :=
  ∀ (i : Instr) (s : State), ∃ t, exec i s = .next t ∧ ∀ f, f ∉ flagsWritten i → flag f t.p = flag f s.p

/-- The memory frame: the stored addresses are computed by `storedAddrs`, with the address functions the meanings use
(R92, R119, R170). Slot 9 has no stored byte (R79); slot 8 is a window moved by slots 5 to 7 (R76). -/
def Obligations.MemoryChangesOnlyWhereStored : Prop :=
  ∀ (i : Instr) (s : State), ∃ t, exec i s = .next t ∧
    (∀ b : Word, b ∉ storedAddrs i s → b ≠ 0x6009 →
      (b = 0x6008 → (0x6005 : Word) ∉ storedAddrs i s ∧ (0x6006 : Word) ∉ storedAddrs i s ∧
        (0x6007 : Word) ∉ storedAddrs i s) → byteAt t b = byteAt s b) ∧
    (storedAddrs i s = [] → t.ram = s.ram ∧ t.bank = s.bank)

/-- The frame of the rest of State (R85, R258); the draw counter, the diagnostics and the script are the model's own
fields (notes/assumptions/4.md, 7.md, 8.md). -/
def Obligations.DeviceStateFrame : Prop :=
  ∀ (i : Instr) (s : State), ∃ t, exec i s = .next t ∧ t.rom = s.rom ∧ t.cart = s.cart ∧
    t.host = s.host ∧ t.config = s.config ∧
    (t.draws = s.draws ∨ t.draws = s.draws + 1) ∧ (∃ l, t.diag = l ++ s.diag ∧ l.length ≤ 2) ∧
    (storedAddrs i s = [] → t.dirty = s.dirty ∧ t.fatal = s.fatal)

/-- R109 to R114, R116, R117, and the `LoadOperand` of R119 for every memory mode and for the immediate (R108), on the
operand already fetched (notes/assumptions/10.md), for both values of `ZP_PTR_WRAP`. That the platform takes false, so
that a pointer at `0xFF` has its high byte at `0x0100`, is the spec's own decision D7 (DESIGN CHOICE,
notes/assumptions/5.md). -/
def Obligations.OperandAddresses : Prop :=
  ∀ (s : State) (b : Byte) (w : Word),
    (effAddr (.zp b) s).toNat = b.toNat ∧
    (effAddr (.zpx b) s).toNat = (b.toNat + s.x.toNat) % 256 ∧
    (effAddr (.zpy b) s).toNat = (b.toNat + s.y.toNat) % 256 ∧
    (effAddr (.abs w) s).toNat = w.toNat ∧
    (effAddr (.abx w) s).toNat = (w.toNat + s.x.toNat) % 65536 ∧
    (effAddr (.aby w) s).toNat = (w.toNat + s.y.toNat) % 65536 ∧
    (let top := if s.config.zpPtrWrap then 256 else 257
     (effAddr (.izx b) s).toNat = (s.ram.read (((b.toNat + s.x.toNat) % 256 + 1) % top)).toNat * 256 +
       (s.ram.read ((b.toNat + s.x.toNat) % 256)).toNat ∧
     (effAddr (.izy b) s).toNat = ((s.ram.read ((b.toNat + 1) % top)).toNat * 256 + (s.ram.read b.toNat).toNat +
       s.y.toNat) % 65536) ∧
    loadOperand (.imm b) s = (b, s) ∧
    ∀ m : MemOperand, loadOperand (.mem m) s = (byteAt s (effAddr m s), afterRead (effAddr m s) s)

/-- R180. -/
def Obligations.SetZnWritesTwoFlags : Prop :=
  ∀ v p : Byte, flag .Z (setZN v p) = decide (v = 0x00) ∧ flag .N (setZN v p) = decide (128 ≤ v.toNat) ∧
    ∀ f, f ≠ .Z → f ≠ .N → flag f (setZN v p) = flag f p

/-- R140 to R142, every form with its opcode. -/
def Obligations.Loads : Prop :=
  (∀ (b : Byte) (w : Word), [.ldaImm b, .ldaZp b, .ldaZpx b, .ldaAbs w, .ldaAbx w, .ldaAby w, .ldaIzx b, .ldaIzy b].map
      opcode = [0xA9, 0xA5, 0xB5, 0xAD, 0xBD, 0xB9, 0xA1, 0xB1]) ∧
  (∀ (b : Byte) (w : Word), [.ldxImm b, .ldxZp b, .ldxZpy b, .ldxAbs w, .ldxAby w].map
      opcode = [0xA2, 0xA6, 0xB6, 0xAE, 0xBE]) ∧
  (∀ (b : Byte) (w : Word), [.ldyImm b, .ldyZp b, .ldyZpx b, .ldyAbs w, .ldyAbx w].map
      opcode = [0xA0, 0xA4, 0xB4, 0xAC, 0xBC]) ∧
  ForReadForms .ldaImm .ldaZp .ldaZpx .ldaAbs .ldaAbx .ldaAby .ldaIzx .ldaIzy (LoadsInto State.setA) ∧
  (∀ v, LoadsInto State.setX (.imm v) (.ldxImm v)) ∧ (∀ b, LoadsInto State.setX (.mem (.zp b)) (.ldxZp b)) ∧
  (∀ b, LoadsInto State.setX (.mem (.zpy b)) (.ldxZpy b)) ∧ (∀ w, LoadsInto State.setX (.mem (.abs w)) (.ldxAbs w)) ∧
  (∀ w, LoadsInto State.setX (.mem (.aby w)) (.ldxAby w)) ∧
  (∀ v, LoadsInto State.setY (.imm v) (.ldyImm v)) ∧ (∀ b, LoadsInto State.setY (.mem (.zp b)) (.ldyZp b)) ∧
  (∀ b, LoadsInto State.setY (.mem (.zpx b)) (.ldyZpx b)) ∧ (∀ w, LoadsInto State.setY (.mem (.abs w)) (.ldyAbs w)) ∧
  (∀ w, LoadsInto State.setY (.mem (.abx w)) (.ldyAbx w))

/-- R143 to R145, every form with its opcode; `writeByte` is the byte write of R60. -/
def Obligations.Stores : Prop :=
  (∀ (b : Byte) (w : Word), [.staZp b, .staZpx b, .staAbs w, .staAbx w, .staAby w, .staIzx b, .staIzy b].map
      opcode = [0x85, 0x95, 0x8D, 0x9D, 0x99, 0x81, 0x91]) ∧
  (∀ (b : Byte) (w : Word), [.stxZp b, .stxZpy b, .stxAbs w, .styZp b, .styZpx b, .styAbs w].map
      opcode = [0x86, 0x96, 0x8E, 0x84, 0x94, 0x8C]) ∧
  (∀ b, StoresFrom State.a (.zp b) (.staZp b)) ∧ (∀ b, StoresFrom State.a (.zpx b) (.staZpx b)) ∧
  (∀ w, StoresFrom State.a (.abs w) (.staAbs w)) ∧ (∀ w, StoresFrom State.a (.abx w) (.staAbx w)) ∧
  (∀ w, StoresFrom State.a (.aby w) (.staAby w)) ∧ (∀ b, StoresFrom State.a (.izx b) (.staIzx b)) ∧
  (∀ b, StoresFrom State.a (.izy b) (.staIzy b)) ∧
  (∀ b, StoresFrom State.x (.zp b) (.stxZp b)) ∧ (∀ b, StoresFrom State.x (.zpy b) (.stxZpy b)) ∧
  (∀ w, StoresFrom State.x (.abs w) (.stxAbs w)) ∧
  (∀ b, StoresFrom State.y (.zp b) (.styZp b)) ∧ (∀ b, StoresFrom State.y (.zpx b) (.styZpx b)) ∧
  (∀ w, StoresFrom State.y (.abs w) (.styAbs w)) ∧
  ∀ (v : Byte) (s : State), (writeByte 0x6008 v s).fatal = true

/-- R150 to R155. -/
def Obligations.Transfers : Prop :=
  [Instr.tax, .tay, .txa, .tya, .tsx, .txs].map opcode = [0xAA, 0xA8, 0x8A, 0x98, 0xBA, 0x9A] ∧
  ∀ s : State,
    exec .tax s = .next ((s.setX s.a).setP (setZN s.a s.p)) ∧ exec .tay s = .next ((s.setY s.a).setP (setZN s.a s.p)) ∧
    exec .txa s = .next ((s.setA s.x).setP (setZN s.x s.p)) ∧ exec .tya s = .next ((s.setA s.y).setP (setZN s.y s.p)) ∧
    exec .tsx s = .next ((s.setX s.sp).setP (setZN s.sp s.p)) ∧ exec .txs s = .next (s.setSp s.x)

/-- R160 with its consequences, for both values of `DECINC_CARRY`. The platform's value, wrapped, is what R160 calls
"this spec's reading", decision D11 (DESIGN CHOICE, notes/assumptions/5.md). -/
def Obligations.IncrementLaw : Prop :=
  ∀ (d : DecIncCarry) (v p : Byte),
    (inc8 v p).1.toNat = (v.toNat + 1) % 256 ∧ flag .C (inc8 v p).2 = decide (v = 0xFF) ∧
    flag .Z (inc8 v p).2 = decide ((inc8 v p).1 = 0) ∧ flag .N (inc8 v p).2 = decide (128 ≤ (inc8 v p).1.toNat) ∧
    flag .C (inc8 v p).2 = flag .Z (inc8 v p).2 ∧
    (dec8 d v p).1.toNat = (v.toNat + 255) % 256 ∧ flag .C (dec8 .wrapped v p).2 = decide (v = 0x00) ∧
    flag .C (dec8 .borrow v p).2 = decide (v ≠ 0x00) ∧
    flag .Z (dec8 d v p).2 = decide ((dec8 d v p).1 = 0) ∧ flag .N (dec8 d v p).2 = decide (128 ≤ (dec8 d v p).1.toNat) ∧
    flag .C (dec8 .wrapped v p).2 = decide ((dec8 .wrapped v p).1 = 0xFF) ∧
    ∀ f, f ≠ .C → f ≠ .Z → f ≠ .N → flag f (inc8 v p).2 = flag f p ∧ flag f (dec8 d v p).2 = flag f p

/-- R161, R162, every form with its opcode; on ROM, slot 9 and the invalid slots the write is dropped by `writeByte`
and the flags are still written. DEC's Carry is stated for both values of `DECINC_CARRY`; that the platform takes
wrapped is the spec's own decision D11 (DESIGN CHOICE, notes/assumptions/5.md). -/
def Obligations.IncDecMemory : Prop :=
  (∀ (b : Byte) (w : Word), [.incZp b, .incZpx b, .incAbs w, .incAbx w, .decZp b, .decZpx b, .decAbs w, .decAbx w].map
      opcode = [0xE6, 0xF6, 0xEE, 0xFE, 0xC6, 0xD6, 0xCE, 0xDE]) ∧
  ForMemForms .incZp .incZpx .incAbs .incAbx (StepsMemory (fun v => v + 1) (fun _ v => v == 0xFF)) ∧
  ForMemForms .decZp .decZpx .decAbs .decAbx (StepsMemory (fun v => v - 1)
    (fun cfg v => if cfg.decIncCarry = .wrapped then v == 0x00 else v != 0x00))

/-- R163 to R166. DEX's and DEY's Carry is stated for both values of `DECINC_CARRY`; that the platform takes wrapped
is the spec's own decision D11 (DESIGN CHOICE, notes/assumptions/5.md). -/
def Obligations.IncDecRegisters : Prop :=
  [Instr.inx, .iny, .dex, .dey].map opcode = [0xE8, 0xC8, 0xCA, 0x88] ∧
  ∀ s : State,
    exec .inx s = .next ((s.setX (s.x + 1)).setP (setZN (s.x + 1) (putFlag .C (s.x == 0xFF) s.p))) ∧
    exec .iny s = .next ((s.setY (s.y + 1)).setP (setZN (s.y + 1) (putFlag .C (s.y == 0xFF) s.p))) ∧
    exec .dex s = .next ((s.setX (s.x - 1)).setP (setZN (s.x - 1) (putFlag .C
      (if s.config.decIncCarry = .wrapped then s.x == 0x00 else s.x != 0x00) s.p))) ∧
    exec .dey s = .next ((s.setY (s.y - 1)).setP (setZN (s.y - 1) (putFlag .C
      (if s.config.decIncCarry = .wrapped then s.y == 0x00 else s.y != 0x00) s.p)))

/-- R174 to R177 with the pushes and pops of R170, R171 and R173, for every `STACK_DISCIPLINE` and `FORCE_MASK` of
R11. That the platform takes predec_postinc, the slots of R170 and R171, and 0x18 are the spec's own decisions D3 and
D2 (DESIGN CHOICE, notes/assumptions/5.md). -/
def Obligations.StackInstructions : Prop :=
  (∀ (s : State) (k : Nat),
    (s.config.stackDiscipline = .predecPostinc → pushAddr s k = 0x0100 + ((s.sp - BitVec.ofNat 8 k) - 1).setWidth 16 ∧
      popAddr s k = 0x0100 + (s.sp + BitVec.ofNat 8 k).setWidth 16) ∧
    (s.config.stackDiscipline = .postdecPreinc → pushAddr s k = 0x0100 + (s.sp - BitVec.ofNat 8 k).setWidth 16 ∧
      popAddr s k = 0x0100 + ((s.sp + BitVec.ofNat 8 k) + 1).setWidth 16)) ∧
  [Instr.pha, .pla, .php, .plp].map opcode = [0x48, 0x68, 0x08, 0x28] ∧
  ∀ s : State,
    exec .pha s = .next ((s.setSp (s.sp - 1)).setRam (s.ram.write (pushAddr s 0).toNat s.a)) ∧
    exec .pla s = .next (((s.setSp (s.sp + 1)).setA (s.ram.read (popAddr s 0).toNat)).setP
      (setZN (s.ram.read (popAddr s 0).toNat) s.p)) ∧
    exec .php s = .next ((s.setSp (s.sp - 1)).setRam (s.ram.write (pushAddr s 0).toNat (s.p ||| s.config.forceMask))) ∧
    exec .plp s = .next ((s.setSp (s.sp + 1)).setP (s.ram.read (popAddr s 0).toNat &&& ~~~s.config.forceMask))

/-- R171: "`Pop8()` after `Push8(v)` returns `v` and restores `SP`. The byte stays in RAM after the pop." -/
def Obligations.PushThenPull : Prop :=
  ∀ s : State, s.ram.wf → ∃ t, exec .pha s = .next t ∧
    ∀ t' : State, t'.config = t.config → t'.sp = t.sp → t'.ram = t.ram →
      ∃ u, exec .pla t' = .next u ∧ u.a = s.a ∧ u.sp = s.sp ∧ u.ram = t.ram ∧
        u.ram.read (pushAddr s 0).toNat = s.a

/-- R173 (and R27), for any mask and then through PHP and PLP for the `FORCE_MASK` of the state (the platform's is in
notes/assumptions/5.md). -/
def Obligations.FlagsRoundTrip : Prop :=
  (∀ mask p : Byte, forcedOnPush mask p = p ||| mask ∧ restoredOnPop mask p = p &&& ~~~mask ∧
    restoredOnPop mask (forcedOnPush mask p) = p &&& ~~~mask) ∧
  ∀ s : State, s.ram.wf → ∃ t u, exec .php s = .next t ∧ t.p = s.p ∧
    byteAt t (pushAddr s 0) = s.p ||| s.config.forceMask ∧
    exec .plp t = .next u ∧ u.p = s.p &&& ~~~s.config.forceMask ∧ u.sp = s.sp

/-- R181 to R183, every form with its opcode. -/
def Obligations.LogicInstructions : Prop :=
  (∀ (b : Byte) (w : Word), [.andImm b, .andZp b, .andZpx b, .andAbs w, .andAbx w, .andAby w, .andIzx b, .andIzy b].map
      opcode = [0x29, 0x25, 0x35, 0x2D, 0x3D, 0x39, 0x21, 0x31]) ∧
  (∀ (b : Byte) (w : Word), [.oraImm b, .oraZp b, .oraZpx b, .oraAbs w, .oraAbx w, .oraAby w, .oraIzx b, .oraIzy b].map
      opcode = [0x09, 0x05, 0x15, 0x0D, 0x1D, 0x19, 0x01, 0x11]) ∧
  (∀ (b : Byte) (w : Word), [.eorImm b, .eorZp b, .eorZpx b, .eorAbs w, .eorAbx w, .eorAby w, .eorIzx b, .eorIzy b].map
      opcode = [0x49, 0x45, 0x55, 0x4D, 0x5D, 0x59, 0x41, 0x51]) ∧
  ForReadForms .andImm .andZp .andZpx .andAbs .andAbx .andAby .andIzx .andIzy (CombinesWithA (fun a m => a &&& m)) ∧
  ForReadForms .oraImm .oraZp .oraZpx .oraAbs .oraAbx .oraAby .oraIzx .oraIzy (CombinesWithA (fun a m => a ||| m)) ∧
  ForReadForms .eorImm .eorZp .eorZpx .eorAbs .eorAbx .eorAby .eorIzx .eorIzy (CombinesWithA (fun a m => a ^^^ m))

/-- R184. -/
def Obligations.BitTest : Prop :=
  (∀ (b : Byte) (w : Word), [.bitZp b, .bitAbs w].map
      opcode = [0x24, 0x2C]) ∧
  ∀ (s : State) (m : MemOperand) (i : Instr), (∃ b, m = .zp b ∧ i = .bitZp b) ∨ (∃ w, m = .abs w ∧ i = .bitAbs w) →
    ∃ t, exec i s = .next t ∧ t = (afterRead (effAddr m s) s).setP t.p ∧
      flag .Z t.p = decide (s.a &&& byteAt s (effAddr m s) = 0) ∧
      flag .V t.p = decide (64 ≤ (byteAt s (effAddr m s)).toNat % 128) ∧
      flag .N t.p = decide (128 ≤ (byteAt s (effAddr m s)).toNat) ∧
      ∀ f, f ≠ .Z → f ≠ .V → f ≠ .N → flag f t.p = flag f s.p

/-- R185, R186, every form with its opcode. -/
def Obligations.AddWithCarry : Prop :=
  (∀ (b : Byte) (w : Word), [.adcImm b, .adcZp b, .adcZpx b, .adcAbs w, .adcAbx w, .adcAby w, .adcIzx b, .adcIzy b].map
      opcode = [0x69, 0x65, 0x75, 0x6D, 0x7D, 0x79, 0x61, 0x71]) ∧
  ForReadForms .adcImm .adcZp .adcZpx .adcAbs .adcAbx .adcAby .adcIzx .adcIzy (AddsWithCarry false)

/-- R187, every form with its opcode. -/
def Obligations.SubtractWithBorrow : Prop :=
  (∀ (b : Byte) (w : Word), [.sbcImm b, .sbcZp b, .sbcZpx b, .sbcAbs w, .sbcAbx w, .sbcAby w, .sbcIzx b, .sbcIzy b].map
      opcode = [0xE9, 0xE5, 0xF5, 0xED, 0xFD, 0xF9, 0xE1, 0xF1]) ∧
  ForReadForms .sbcImm .sbcZp .sbcZpx .sbcAbs .sbcAbx .sbcAby .sbcIzx .sbcIzy (AddsWithCarry true)

/-- The law of spec/95_test_vectors.md 2.5.3 for two Carries, which follows from R185 to R187 (R190 states it for a
Carry held constant). -/
def Obligations.AdcThenSbc : Prop :=
  ∀ (s : State) (m : Byte) (c1 c2 : Bool), ∃ t u, exec (.adcImm m) (s.setP (putFlag .C c1 s.p)) = .next t ∧
    exec (.sbcImm m) (t.setP (putFlag .C c2 t.p)) = .next u ∧
    u.a.toNat = (s.a.toNat + c1.toNat + c2.toNat + 255) % 256 ∧ (u.a = s.a ↔ c1 ≠ c2)

/-- R188, as noninterference over every instruction. That pushes do not show it either, and that pops clear it, is
R236's consequence of `FORCE_MASK = 0x18`, the spec's own decision D2 (DESIGN CHOICE, notes/assumptions/5.md), so
those clauses carry the bit of the mask as a premise. -/
def Obligations.DecimalIsUnobservable : Prop :=
  (∀ (i : Instr) (s t : State) (b : Bool), s.config.forceMask.getLsbD 3 = true ∨ (i ≠ .php ∧ i ≠ .brk) →
    exec i s = .next t →
    exec i (s.setP (putFlag .D b s.p)) =
      .next (if .D ∈ flagsWritten i then t else t.setP (putFlag .D b t.p))) ∧
  (∀ s t : State, exec .sed s = .next t → flag .D t.p = true) ∧
  (∀ s t : State, exec .cld s = .next t → flag .D t.p = false) ∧
  ∀ (i : Instr) (s t : State), i = .plp ∨ i = .rti → s.config.forceMask.getLsbD 3 = true → exec i s = .next t →
    flag .D t.p = false

/-- R195 to R199, every form with its opcode, for both values of `ROR_INSERT`. That the platform takes or is the
spec's own reading of "insert", decision D12 (DESIGN CHOICE, notes/assumptions/5.md). -/
def Obligations.ShiftsGoRight : Prop :=
  (∀ (b : Byte) (w : Word), [.aslAcc, .aslZp b, .aslZpx b, .aslAbs w, .aslAbx w].map
      opcode = [0x0A, 0x06, 0x16, 0x0E, 0x1E]) ∧
  (∀ (b : Byte) (w : Word), [.lsrAcc, .lsrZp b, .lsrZpx b, .lsrAbs w, .lsrAbx w].map
      opcode = [0x4A, 0x46, 0x56, 0x4E, 0x5E]) ∧
  (∀ (b : Byte) (w : Word), [.rolAcc, .rolZp b, .rolZpx b, .rolAbs w, .rolAbx w].map
      opcode = [0x2A, 0x26, 0x36, 0x2E, 0x3E]) ∧
  (∀ (b : Byte) (w : Word), [.rorAcc, .rorZp b, .rorZpx b, .rorAbs w, .rorAbx w].map
      opcode = [0x6A, 0x66, 0x76, 0x6E, 0x7E]) ∧
  ForShiftForms .aslAcc .aslZp .aslZpx .aslAbs .aslAbx (ShiftsBy (fun _ v _ => v >>> 1)) ∧
  ForShiftForms .lsrAcc .lsrZp .lsrZpx .lsrAbs .lsrAbx (ShiftsBy (fun _ v _ => v >>> 1)) ∧
  ForShiftForms .rolAcc .rolZp .rolZpx .rolAbs .rolAbx
    (ShiftsBy (fun _ v c => (v >>> 1) ||| (if c then 0x80 else 0x00))) ∧
  ForShiftForms .rorAcc .rorZp .rorZpx .rorAbs .rorAbx
    (ShiftsBy (fun cfg v c =>
      (if cfg.rorInsert = .or then v >>> 1 else (v >>> 1) &&& 0xFE) ||| (if c then 0x01 else 0x00)))

/-- R198: "nine executions of `ROL A` restore `A` and `P.C` (a 9-bit rotation right)". -/
def Obligations.NineRolRestores : Prop :=
  ∀ s : State, ∃ t, repeatExec .rolAcc 9 s = some t ∧ t.a = s.a ∧ flag .C t.p = flag .C s.p ∧ t.x = s.x ∧ t.y = s.y ∧
    t.sp = s.sp ∧ t.ram = s.ram

/-- R205 to R208, every form with its opcode. -/
def Obligations.Compares : Prop :=
  (∀ (b : Byte) (w : Word), [.cmpImm b, .cmpZp b, .cmpZpx b, .cmpAbs w, .cmpAbx w, .cmpAby w, .cmpIzx b, .cmpIzy b].map
      opcode = [0xC9, 0xC5, 0xD5, 0xCD, 0xDD, 0xD9, 0xC1, 0xD1]) ∧
  (∀ (b : Byte) (w : Word), [.cpxImm b, .cpxZp b, .cpxAbs w, .cpyImm b, .cpyZp b, .cpyAbs w].map
      opcode = [0xE0, 0xE4, 0xEC, 0xC0, 0xC4, 0xCC]) ∧
  ForReadForms .cmpImm .cmpZp .cmpZpx .cmpAbs .cmpAbx .cmpAby .cmpIzx .cmpIzy (ComparesWith State.a) ∧
  ForShortForms .cpxImm .cpxZp .cpxAbs (ComparesWith State.x) ∧
  ForShortForms .cpyImm .cpyZp .cpyAbs (ComparesWith State.y)

/-- R210 to R218 (target as R118); `s` is the state after the operand fetch (notes/assumptions/10.md). -/
def Obligations.Branches : Prop :=
  (∀ b : Byte, [Instr.bpl b, .bmi b, .bvc b, .bvs b, .bcc b, .bcs b, .bne b, .beq b].map opcode =
      [0x10, 0x30, 0x50, 0x70, 0x90, 0xB0, 0xD0, 0xF0]) ∧
  ∀ (s : State) (off : Byte),
    exec (.bpl off) s = .next (if flag .N s.p = false then s.setPc (s.pc + BitVec.ofInt 16 off.toInt) else s) ∧
    exec (.bmi off) s = .next (if flag .N s.p = true then s.setPc (s.pc + BitVec.ofInt 16 off.toInt) else s) ∧
    exec (.bvc off) s = .next (if flag .V s.p = false then s.setPc (s.pc + BitVec.ofInt 16 off.toInt) else s) ∧
    exec (.bvs off) s = .next (if flag .V s.p = true then s.setPc (s.pc + BitVec.ofInt 16 off.toInt) else s) ∧
    exec (.bcc off) s = .next (if flag .C s.p = false then s.setPc (s.pc + BitVec.ofInt 16 off.toInt) else s) ∧
    exec (.bcs off) s = .next (if flag .C s.p = true then s.setPc (s.pc + BitVec.ofInt 16 off.toInt) else s) ∧
    exec (.bne off) s = .next (if flag .Z s.p = false then s.setPc (s.pc + BitVec.ofInt 16 off.toInt) else s) ∧
    exec (.beq off) s = .next (if flag .Z s.p = true then s.setPc (s.pc + BitVec.ofInt 16 off.toInt) else s)

/-- R220 to R222; `s` is the state after the operand fetch, so JSR's own last byte is at `PC - 1` (R103,
notes/assumptions/10.md). JMP IND is stated for both values of `JMP_IND_PAGE_BUG`; that the platform takes false, so
that the high byte is at `ptr + 1` also for `$xxFF`, is the spec's own decision D8 (DESIGN CHOICE,
notes/assumptions/5.md). The stack slots are `pushAddr` and `popAddr`, for every `STACK_DISCIPLINE`. -/
def Obligations.JumpsCallsReturns : Prop :=
  (∀ w : Word, [Instr.jmpAbs w, .jmpInd w, .jsr w, .rts].map opcode = [0x4C, 0x6C, 0x20, 0x60]) ∧
  ∀ (s : State) (w : Word),
    exec (.jmpAbs w) s = .next (s.setPc w) ∧
    (∀ h : Word, h.toNat = (if s.config.jmpIndPageBug then w.toNat / 256 * 256 + (w.toNat + 1) % 256
        else (w.toNat + 1) % 65536) →
      ∃ t, exec (.jmpInd w) s = .next t ∧ t = (afterRead h (afterRead w s)).setPc t.pc ∧
        t.pc.toNat = (byteAt s h).toNat * 256 + (byteAt s w).toNat) ∧
    exec (.jsr w) s = .next (((s.setSp (s.sp - 2)).setRam
      ((s.ram.write (pushAddr s 0).toNat (((s.pc - 1) >>> 8).setWidth 8)).write (pushAddr s 1).toNat
        ((s.pc - 1).setWidth 8))).setPc w) ∧
    ∃ t, exec .rts s = .next t ∧ t = (s.setSp (s.sp + 2)).setPc t.pc ∧
      t.pc.toNat = ((s.ram.read (popAddr s 1).toNat).toNat * 256 +
        (s.ram.read (popAddr s 0).toNat).toNat + 1) % 65536

/-- R221 and R222: the pair returns to the next instruction, also where the pushes wrap in the stack page. -/
def Obligations.CallThenReturn : Prop :=
  ∀ (s : State) (w : Word), s.ram.wf → ∃ t, exec (.jsr w) s = .next t ∧ t.pc = w ∧
    ∀ t' : State, t'.config = t.config → t'.sp = t.sp → t'.ram = t.ram →
      ∃ u, exec .rts t' = .next u ∧ u.pc = s.pc ∧ u.sp = s.sp ∧ u.ram = t.ram ∧ u.a = t'.a ∧ u.p = t'.p

/-- R230 to R236 and R239. -/
def Obligations.FlagInstructionsAndNop : Prop :=
  [Instr.clc, .sec, .cli, .sei, .clv, .cld, .sed, .nop].map opcode = [0x18, 0x38, 0x58, 0x78, 0xB8, 0xD8, 0xF8, 0xEA] ∧
  ∀ s : State,
    exec .clc s = .next (s.setP (s.p &&& 0xFE)) ∧ exec .sec s = .next (s.setP (s.p ||| 0x01)) ∧
    exec .cli s = .next (s.setP (s.p &&& 0xFB)) ∧ exec .sei s = .next (s.setP (s.p ||| 0x04)) ∧
    exec .clv s = .next (s.setP (s.p &&& 0xBF)) ∧ exec .cld s = .next (s.setP (s.p &&& 0xF7)) ∧
    exec .sed s = .next (s.setP (s.p ||| 0x08)) ∧ exec .nop s = .next s

/-- R238, for every `FORCE_MASK` and `STACK_DISCIPLINE` (R11). -/
def Obligations.ReturnFromInterrupt : Prop :=
  opcode .rti = 0x40 ∧
  ∀ s : State, ∃ t, exec .rti s = .next t ∧ t = ((s.setSp (s.sp + 3)).setPc t.pc).setP
      (s.ram.read (popAddr s 0).toNat &&& ~~~s.config.forceMask) ∧
    t.pc.toNat = (s.ram.read (popAddr s 2).toNat).toNat * 256 + (s.ram.read (popAddr s 1).toNat).toNat
end

