-- ==== Sys2Proof/Laws/Flags.lean ====
section
/-! SUPPORT. Laws of the flags byte: what writing one flag does to each flag, and each flag after each flag
computation of the ALU. -/

namespace Sys2Proof.Machine

@[simp] theorem flag_putFlag_same (f : Flag) (b : Bool) (p : Byte) : flag f (putFlag f b p) = b := by
  cases f <;> cases b <;> simp [flag, putFlag, flagMask, flagBit]

theorem flag_putFlag_ne {f g : Flag} (b : Bool) (p : Byte) (h : g ≠ f) : flag g (putFlag f b p) = flag g p := by
  cases f <;> cases g <;> first | exact absurd rfl h | (cases b <;> simp [flag, putFlag, flagMask, flagBit])

theorem flag_putFlag (f g : Flag) (b : Bool) (p : Byte) :
    flag g (putFlag f b p) = if g = f then b else flag g p := by
  by_cases h : g = f
  · subst h
    simp
  · rw [if_neg h, flag_putFlag_ne b p h]

theorem flag_setZN (f : Flag) (v p : Byte) :
    flag f (setZN v p) = if f = .N then v.msb else if f = .Z then v == 0 else flag f p := by
  simp only [setZN, flag_putFlag]

theorem flag_adcFlags (f : Flag) (a m p : Byte) :
    flag f (adcFlags a m p) =
      if f = .N then (adcResult a m (flag .C p)).msb
      else if f = .Z then adcResult a m (flag .C p) == 0
      else if f = .V then adcOverflow a m (adcResult a m (flag .C p))
      else if f = .C then decide (0xFF < adcSum a m (flag .C p))
      else flag f p := by
  simp only [adcFlags, flag_setZN, flag_putFlag]

/-- The Overflow formula of R185 as signed overflow. -/
theorem adcOverflow_eq (a m : Byte) (c : Bool) :
    adcOverflow a m (adcResult a m c) =
      decide (a.toInt + m.toInt + c.toNat < -128 ∨ 127 < a.toInt + m.toInt + c.toNat) := by
  have ha := a.isLt
  have hm := m.isLt
  have hc := c.toNat_le
  have hr : (adcResult a m c).toNat = (a.toNat + m.toNat + c.toNat) % 256 := by simp [adcResult, adcSum]
  have hmsb : ∀ x : Byte, x.msb = decide (128 ≤ x.toNat) := fun x => by simp [BitVec.msb_eq_decide]
  rw [BitVec.toInt_eq_toNat_cond, BitVec.toInt_eq_toNat_cond]
  simp only [adcOverflow, BitVec.msb_and, BitVec.msb_xor]
  simp only [hmsb, hr]
  by_cases h1 : 128 ≤ a.toNat <;> by_cases h2 : 128 ≤ m.toNat <;>
    by_cases h3 : 128 ≤ (a.toNat + m.toNat + c.toNat) % 256 <;>
    simp only [h1, h2, h3, decide_true, decide_false, Bool.xor_self, Bool.xor_true, Bool.xor_false,
      Bool.not_false, Bool.and_true, Bool.and_false] <;>
    (symm; first | (refine decide_eq_true ?_) | (refine decide_eq_false ?_)) <;> omega

theorem flag_bitFlags (f : Flag) (a m p : Byte) :
    flag f (bitFlags a m p) =
      if f = .N then m.getLsbD 7 else if f = .V then m.getLsbD 6 else if f = .Z then a &&& m == 0
      else flag f p := by
  simp only [bitFlags, flag_putFlag]

theorem flag_compareFlags (f : Flag) (r m p : Byte) :
    flag f (compareFlags r m p) =
      if f = .N then (r - m).msb else if f = .Z then r - m == 0
      else if f = .C then decide (m.toNat ≤ r.toNat) else flag f p := by
  simp only [compareFlags, flag_setZN, flag_putFlag]

theorem flag_inc8 (f : Flag) (v p : Byte) :
    flag f (inc8 v p).2 =
      if f = .N then (v + 1).msb else if f = .Z then v + 1 == 0 else if f = .C then v == 0xFF else flag f p := by
  simp only [inc8, flag_setZN, flag_putFlag]

theorem flag_dec8 (f : Flag) (d : DecIncCarry) (v p : Byte) :
    flag f (dec8 d v p).2 =
      if f = .N then (v - 1).msb else if f = .Z then v - 1 == 0
      else if f = .C then decCarry d v else flag f p := by
  simp only [dec8, flag_setZN, flag_putFlag]

theorem flag_shift8 (f : Flag) (ins : RorInsert) (k : ShiftKind) (v p : Byte) :
    flag f (shift8 ins k v p).2 =
      if f = .N then (shift8 ins k v p).1.msb else if f = .Z then (shift8 ins k v p).1 == 0
      else if f = .C then v.getLsbD 0 else flag f p := by
  simp only [shift8, flag_setZN, flag_putFlag]

/-- Two flags bytes are equal when their eight flags are. -/
theorem eq_of_flags {p q : Byte} (h : ∀ f, flag f p = flag f q) : p = q := by
  apply BitVec.eq_of_getLsbD_eq
  intro i hi
  have hC := h .C; have hZ := h .Z; have hI := h .I; have hD := h .D
  have hB := h .B; have hU := h .U; have hV := h .V; have hN := h .N
  simp only [flag, flagBit] at hC hZ hI hD hB hU hV hN
  rcases (by omega : i = 0 ∨ i = 1 ∨ i = 2 ∨ i = 3 ∨ i = 4 ∨ i = 5 ∨ i = 6 ∨ i = 7) with
    rfl | rfl | rfl | rfl | rfl | rfl | rfl | rfl <;> assumption

end Sys2Proof.Machine
end

