-- ==== Sys2Proof/Laws/Memory.lean ====
section
/-! SUPPORT. Laws of the byte stores: reading after writing, the canonical form, and that equal contents are
equal data. -/

namespace Sys2Proof.Machine

theorem Memory.read_write_same (m : Memory) (a : Nat) (v : Byte) (h : m.wf) : (m.write a v).read a = v := by
  induction m with
  | nil => by_cases hv : v = unlistedByte <;> simp [Memory.write, Memory.read, hv]
  | cons c rest ih =>
    obtain ⟨k, u⟩ := c
    obtain ⟨hp, hn⟩ := h
    rw [List.pairwise_cons] at hp
    have absent : ∀ l : Memory, (∀ d ∈ l, a < d.1) → Memory.read l a = unlistedByte := by
      intro l hl
      induction l with
      | nil => rfl
      | cons d l ihl =>
        have := hl d (by simp)
        rw [Memory.read, if_neg (by omega), ihl (fun e he => hl e (by simp [he]))]
    by_cases h1 : a < k
    · by_cases hv : v = unlistedByte
      · simp only [Memory.write, h1, if_true, hv]
        refine absent _ (fun d hd => ?_)
        rcases List.mem_cons.1 hd with rfl | hd
        · exact h1
        · have := hp.1 d hd
          simp only at this
          omega
      · simp [Memory.write, h1, hv, Memory.read]
    · by_cases h2 : a = k
      · subst h2
        by_cases hv : v = unlistedByte
        · simp only [Memory.write, lt_irrefl, if_false, if_true, hv]
          exact absent _ (fun d hd => hp.1 d hd)
        · simp [Memory.write, hv, Memory.read]
      · rw [Memory.write, if_neg h1, if_neg h2, Memory.read, if_neg (Ne.symm h2)]
        exact ih ⟨hp.2, fun d hd => hn d (by simp [hd])⟩

theorem Memory.read_write_ne (m : Memory) {a b : Nat} (v : Byte) (h : b ≠ a) :
    (m.write a v).read b = m.read b := by
  induction m with
  | nil => by_cases hv : v = unlistedByte <;> simp [Memory.write, Memory.read, hv, Ne.symm h]
  | cons c rest ih =>
    obtain ⟨k, u⟩ := c
    by_cases h1 : a < k
    · by_cases hv : v = unlistedByte <;> simp [Memory.write, h1, hv, Memory.read, Ne.symm h]
    · by_cases h2 : a = k
      · subst h2
        by_cases hv : v = unlistedByte <;> simp [Memory.write, hv, Memory.read, Ne.symm h]
      · rw [Memory.write, if_neg h1, if_neg h2, Memory.read, Memory.read, ih]

/-- A key of a written store is the written address or was there before. -/
theorem Memory.mem_write {m : Memory} {a : Nat} {v : Byte} {c : Host.Cell} (h : c ∈ m.write a v) :
    (c = (a, v) ∧ v ≠ unlistedByte) ∨ c ∈ m := by
  induction m with
  | nil =>
    by_cases hv : v = unlistedByte
    · simp [Memory.write, hv] at h
    · simp only [Memory.write, if_neg hv, List.mem_singleton] at h
      exact .inl ⟨h, hv⟩
  | cons d rest ih =>
    obtain ⟨k, u⟩ := d
    simp only [Memory.write] at h
    split at h <;> [skip; split at h] <;> [split at h; split at h; skip]
    · exact .inr h
    · rcases List.mem_cons.1 h with rfl | h
      · exact .inl ⟨rfl, ‹_›⟩
      · exact .inr h
    · exact .inr (List.mem_cons_of_mem _ h)
    · rcases List.mem_cons.1 h with rfl | h
      · exact .inl ⟨rfl, ‹_›⟩
      · exact .inr (List.mem_cons_of_mem _ h)
    · rcases List.mem_cons.1 h with rfl | h
      · exact .inr (by simp)
      · exact (ih h).imp id (List.mem_cons_of_mem _)

theorem Memory.wf_write {m : Memory} (a : Nat) (v : Byte) (h : m.wf) : (m.write a v).wf := by
  refine ⟨?_, fun c hc => ?_⟩
  · induction m with
    | nil => by_cases hv : v = unlistedByte <;> simp [Memory.write, hv]
    | cons d rest ih =>
      obtain ⟨k, u⟩ := d
      obtain ⟨hp, hn⟩ := h
      rw [List.pairwise_cons] at hp
      have hrest : Memory.wf rest := ⟨hp.2, fun c hc => hn c (by simp [hc])⟩
      simp only [Memory.write]
      split <;> [skip; split] <;> [split; split; skip]
      · exact List.pairwise_cons.2 hp
      · refine List.pairwise_cons.2 ⟨fun c hc => ?_, List.pairwise_cons.2 hp⟩
        rcases List.mem_cons.1 hc with rfl | hc
        · assumption
        · have := hp.1 c hc
          simp only at this ⊢
          omega
      · exact hp.2
      · rename_i ha _
        subst ha
        exact List.pairwise_cons.2 hp
      · refine List.pairwise_cons.2 ⟨fun c hc => ?_, ih hrest⟩
        rcases Memory.mem_write hc with ⟨rfl, _⟩ | hc
        · simp only
          omega
        · exact hp.1 c hc
  · rcases Memory.mem_write hc with ⟨rfl, hv⟩ | hc
    · exact hv
    · exact h.2 c hc

theorem Memory.within_write {p : Nat → Bool} {m : Memory} {a : Nat} (v : Byte) (ha : p a = true)
    (h : m.within p) : (m.write a v).within p := by
  intro c hc
  rcases Memory.mem_write hc with ⟨rfl, _⟩ | hc
  · exact ha
  · exact h c hc

/-- Writing what an unlisted address reads as leaves no entry (the write of the canonical form removes it). -/
theorem Memory.write_unlisted_not_listed {m : Memory} {a : Nat} (h : m.wf) :
    ∀ c ∈ m.write a unlistedByte, c.1 ≠ a := by
  intro c hc hca
  have hw := Memory.wf_write a unlistedByte h
  have hr := Memory.read_write_same m a unlistedByte h
  have listed : ∀ l : Memory, l.wf → c ∈ l → Memory.read l c.1 = c.2 := by
    intro l hl hcl
    induction l with
    | nil => simp at hcl
    | cons d l ih =>
      obtain ⟨hp, hn⟩ := hl
      rw [List.pairwise_cons] at hp
      rcases List.mem_cons.1 hcl with rfl | hcl
      · simp [Memory.read]
      · have := hp.1 c hcl
        rw [Memory.read, if_neg (by omega)]
        exact ih ⟨hp.2, fun e he => hn e (by simp [he])⟩ hcl
  have := listed _ hw hc
  rw [hca, hr] at this
  exact hw.2 c hc this.symm

end Sys2Proof.Machine
end

