-- ==== Sys2Proof/Laws/State.lean ====
section
/-! SUPPORT. One lemma per field per named update of State, so that no later proof unfolds a record update. -/

namespace Sys2Proof.Machine

section setA
variable (s : State) (v : Byte)

@[simp] theorem State.setA_config : (s.setA v).config = s.config := rfl
@[simp] theorem State.setA_a : (s.setA v).a = v := rfl
@[simp] theorem State.setA_x : (s.setA v).x = s.x := rfl
@[simp] theorem State.setA_y : (s.setA v).y = s.y := rfl
@[simp] theorem State.setA_sp : (s.setA v).sp = s.sp := rfl
@[simp] theorem State.setA_pc : (s.setA v).pc = s.pc := rfl
@[simp] theorem State.setA_p : (s.setA v).p = s.p := rfl
@[simp] theorem State.setA_bank : (s.setA v).bank = s.bank := rfl
@[simp] theorem State.setA_ram : (s.setA v).ram = s.ram := rfl
@[simp] theorem State.setA_rom : (s.setA v).rom = s.rom := rfl
@[simp] theorem State.setA_cart : (s.setA v).cart = s.cart := rfl
@[simp] theorem State.setA_dirty : (s.setA v).dirty = s.dirty := rfl
@[simp] theorem State.setA_fatal : (s.setA v).fatal = s.fatal := rfl
@[simp] theorem State.setA_draws : (s.setA v).draws = s.draws := rfl
@[simp] theorem State.setA_diag : (s.setA v).diag = s.diag := rfl
@[simp] theorem State.setA_host : (s.setA v).host = s.host := rfl
@[simp] theorem State.setA_setA (w : Byte) : (s.setA v).setA w = s.setA w := rfl
@[simp] theorem State.setA_same : s.setA s.a = s := rfl

end setA

section setX
variable (s : State) (v : Byte)

@[simp] theorem State.setX_config : (s.setX v).config = s.config := rfl
@[simp] theorem State.setX_a : (s.setX v).a = s.a := rfl
@[simp] theorem State.setX_x : (s.setX v).x = v := rfl
@[simp] theorem State.setX_y : (s.setX v).y = s.y := rfl
@[simp] theorem State.setX_sp : (s.setX v).sp = s.sp := rfl
@[simp] theorem State.setX_pc : (s.setX v).pc = s.pc := rfl
@[simp] theorem State.setX_p : (s.setX v).p = s.p := rfl
@[simp] theorem State.setX_bank : (s.setX v).bank = s.bank := rfl
@[simp] theorem State.setX_ram : (s.setX v).ram = s.ram := rfl
@[simp] theorem State.setX_rom : (s.setX v).rom = s.rom := rfl
@[simp] theorem State.setX_cart : (s.setX v).cart = s.cart := rfl
@[simp] theorem State.setX_dirty : (s.setX v).dirty = s.dirty := rfl
@[simp] theorem State.setX_fatal : (s.setX v).fatal = s.fatal := rfl
@[simp] theorem State.setX_draws : (s.setX v).draws = s.draws := rfl
@[simp] theorem State.setX_diag : (s.setX v).diag = s.diag := rfl
@[simp] theorem State.setX_host : (s.setX v).host = s.host := rfl
@[simp] theorem State.setX_setX (w : Byte) : (s.setX v).setX w = s.setX w := rfl
@[simp] theorem State.setX_same : s.setX s.x = s := rfl

end setX

section setY
variable (s : State) (v : Byte)

@[simp] theorem State.setY_config : (s.setY v).config = s.config := rfl
@[simp] theorem State.setY_a : (s.setY v).a = s.a := rfl
@[simp] theorem State.setY_x : (s.setY v).x = s.x := rfl
@[simp] theorem State.setY_y : (s.setY v).y = v := rfl
@[simp] theorem State.setY_sp : (s.setY v).sp = s.sp := rfl
@[simp] theorem State.setY_pc : (s.setY v).pc = s.pc := rfl
@[simp] theorem State.setY_p : (s.setY v).p = s.p := rfl
@[simp] theorem State.setY_bank : (s.setY v).bank = s.bank := rfl
@[simp] theorem State.setY_ram : (s.setY v).ram = s.ram := rfl
@[simp] theorem State.setY_rom : (s.setY v).rom = s.rom := rfl
@[simp] theorem State.setY_cart : (s.setY v).cart = s.cart := rfl
@[simp] theorem State.setY_dirty : (s.setY v).dirty = s.dirty := rfl
@[simp] theorem State.setY_fatal : (s.setY v).fatal = s.fatal := rfl
@[simp] theorem State.setY_draws : (s.setY v).draws = s.draws := rfl
@[simp] theorem State.setY_diag : (s.setY v).diag = s.diag := rfl
@[simp] theorem State.setY_host : (s.setY v).host = s.host := rfl
@[simp] theorem State.setY_setY (w : Byte) : (s.setY v).setY w = s.setY w := rfl
@[simp] theorem State.setY_same : s.setY s.y = s := rfl

end setY

section setSp
variable (s : State) (v : Byte)

@[simp] theorem State.setSp_config : (s.setSp v).config = s.config := rfl
@[simp] theorem State.setSp_a : (s.setSp v).a = s.a := rfl
@[simp] theorem State.setSp_x : (s.setSp v).x = s.x := rfl
@[simp] theorem State.setSp_y : (s.setSp v).y = s.y := rfl
@[simp] theorem State.setSp_sp : (s.setSp v).sp = v := rfl
@[simp] theorem State.setSp_pc : (s.setSp v).pc = s.pc := rfl
@[simp] theorem State.setSp_p : (s.setSp v).p = s.p := rfl
@[simp] theorem State.setSp_bank : (s.setSp v).bank = s.bank := rfl
@[simp] theorem State.setSp_ram : (s.setSp v).ram = s.ram := rfl
@[simp] theorem State.setSp_rom : (s.setSp v).rom = s.rom := rfl
@[simp] theorem State.setSp_cart : (s.setSp v).cart = s.cart := rfl
@[simp] theorem State.setSp_dirty : (s.setSp v).dirty = s.dirty := rfl
@[simp] theorem State.setSp_fatal : (s.setSp v).fatal = s.fatal := rfl
@[simp] theorem State.setSp_draws : (s.setSp v).draws = s.draws := rfl
@[simp] theorem State.setSp_diag : (s.setSp v).diag = s.diag := rfl
@[simp] theorem State.setSp_host : (s.setSp v).host = s.host := rfl
@[simp] theorem State.setSp_setSp (w : Byte) : (s.setSp v).setSp w = s.setSp w := rfl
@[simp] theorem State.setSp_same : s.setSp s.sp = s := rfl

end setSp

section setPc
variable (s : State) (v : Word)

@[simp] theorem State.setPc_config : (s.setPc v).config = s.config := rfl
@[simp] theorem State.setPc_a : (s.setPc v).a = s.a := rfl
@[simp] theorem State.setPc_x : (s.setPc v).x = s.x := rfl
@[simp] theorem State.setPc_y : (s.setPc v).y = s.y := rfl
@[simp] theorem State.setPc_sp : (s.setPc v).sp = s.sp := rfl
@[simp] theorem State.setPc_pc : (s.setPc v).pc = v := rfl
@[simp] theorem State.setPc_p : (s.setPc v).p = s.p := rfl
@[simp] theorem State.setPc_bank : (s.setPc v).bank = s.bank := rfl
@[simp] theorem State.setPc_ram : (s.setPc v).ram = s.ram := rfl
@[simp] theorem State.setPc_rom : (s.setPc v).rom = s.rom := rfl
@[simp] theorem State.setPc_cart : (s.setPc v).cart = s.cart := rfl
@[simp] theorem State.setPc_dirty : (s.setPc v).dirty = s.dirty := rfl
@[simp] theorem State.setPc_fatal : (s.setPc v).fatal = s.fatal := rfl
@[simp] theorem State.setPc_draws : (s.setPc v).draws = s.draws := rfl
@[simp] theorem State.setPc_diag : (s.setPc v).diag = s.diag := rfl
@[simp] theorem State.setPc_host : (s.setPc v).host = s.host := rfl
@[simp] theorem State.setPc_setPc (w : Word) : (s.setPc v).setPc w = s.setPc w := rfl
@[simp] theorem State.setPc_same : s.setPc s.pc = s := rfl

end setPc

section setP
variable (s : State) (v : Byte)

@[simp] theorem State.setP_config : (s.setP v).config = s.config := rfl
@[simp] theorem State.setP_a : (s.setP v).a = s.a := rfl
@[simp] theorem State.setP_x : (s.setP v).x = s.x := rfl
@[simp] theorem State.setP_y : (s.setP v).y = s.y := rfl
@[simp] theorem State.setP_sp : (s.setP v).sp = s.sp := rfl
@[simp] theorem State.setP_pc : (s.setP v).pc = s.pc := rfl
@[simp] theorem State.setP_p : (s.setP v).p = v := rfl
@[simp] theorem State.setP_bank : (s.setP v).bank = s.bank := rfl
@[simp] theorem State.setP_ram : (s.setP v).ram = s.ram := rfl
@[simp] theorem State.setP_rom : (s.setP v).rom = s.rom := rfl
@[simp] theorem State.setP_cart : (s.setP v).cart = s.cart := rfl
@[simp] theorem State.setP_dirty : (s.setP v).dirty = s.dirty := rfl
@[simp] theorem State.setP_fatal : (s.setP v).fatal = s.fatal := rfl
@[simp] theorem State.setP_draws : (s.setP v).draws = s.draws := rfl
@[simp] theorem State.setP_diag : (s.setP v).diag = s.diag := rfl
@[simp] theorem State.setP_host : (s.setP v).host = s.host := rfl
@[simp] theorem State.setP_setP (w : Byte) : (s.setP v).setP w = s.setP w := rfl
@[simp] theorem State.setP_same : s.setP s.p = s := rfl

end setP

section setBank
variable (s : State) (v : IoBank)

@[simp] theorem State.setBank_config : (s.setBank v).config = s.config := rfl
@[simp] theorem State.setBank_a : (s.setBank v).a = s.a := rfl
@[simp] theorem State.setBank_x : (s.setBank v).x = s.x := rfl
@[simp] theorem State.setBank_y : (s.setBank v).y = s.y := rfl
@[simp] theorem State.setBank_sp : (s.setBank v).sp = s.sp := rfl
@[simp] theorem State.setBank_pc : (s.setBank v).pc = s.pc := rfl
@[simp] theorem State.setBank_p : (s.setBank v).p = s.p := rfl
@[simp] theorem State.setBank_bank : (s.setBank v).bank = v := rfl
@[simp] theorem State.setBank_ram : (s.setBank v).ram = s.ram := rfl
@[simp] theorem State.setBank_rom : (s.setBank v).rom = s.rom := rfl
@[simp] theorem State.setBank_cart : (s.setBank v).cart = s.cart := rfl
@[simp] theorem State.setBank_dirty : (s.setBank v).dirty = s.dirty := rfl
@[simp] theorem State.setBank_fatal : (s.setBank v).fatal = s.fatal := rfl
@[simp] theorem State.setBank_draws : (s.setBank v).draws = s.draws := rfl
@[simp] theorem State.setBank_diag : (s.setBank v).diag = s.diag := rfl
@[simp] theorem State.setBank_host : (s.setBank v).host = s.host := rfl
@[simp] theorem State.setBank_setBank (w : IoBank) : (s.setBank v).setBank w = s.setBank w := rfl
@[simp] theorem State.setBank_same : s.setBank s.bank = s := rfl

end setBank

section setRam
variable (s : State) (v : Memory)

@[simp] theorem State.setRam_config : (s.setRam v).config = s.config := rfl
@[simp] theorem State.setRam_a : (s.setRam v).a = s.a := rfl
@[simp] theorem State.setRam_x : (s.setRam v).x = s.x := rfl
@[simp] theorem State.setRam_y : (s.setRam v).y = s.y := rfl
@[simp] theorem State.setRam_sp : (s.setRam v).sp = s.sp := rfl
@[simp] theorem State.setRam_pc : (s.setRam v).pc = s.pc := rfl
@[simp] theorem State.setRam_p : (s.setRam v).p = s.p := rfl
@[simp] theorem State.setRam_bank : (s.setRam v).bank = s.bank := rfl
@[simp] theorem State.setRam_ram : (s.setRam v).ram = v := rfl
@[simp] theorem State.setRam_rom : (s.setRam v).rom = s.rom := rfl
@[simp] theorem State.setRam_cart : (s.setRam v).cart = s.cart := rfl
@[simp] theorem State.setRam_dirty : (s.setRam v).dirty = s.dirty := rfl
@[simp] theorem State.setRam_fatal : (s.setRam v).fatal = s.fatal := rfl
@[simp] theorem State.setRam_draws : (s.setRam v).draws = s.draws := rfl
@[simp] theorem State.setRam_diag : (s.setRam v).diag = s.diag := rfl
@[simp] theorem State.setRam_host : (s.setRam v).host = s.host := rfl
@[simp] theorem State.setRam_setRam (w : Memory) : (s.setRam v).setRam w = s.setRam w := rfl
@[simp] theorem State.setRam_same : s.setRam s.ram = s := rfl

end setRam

section setRom
variable (s : State) (v : Memory)

@[simp] theorem State.setRom_config : (s.setRom v).config = s.config := rfl
@[simp] theorem State.setRom_a : (s.setRom v).a = s.a := rfl
@[simp] theorem State.setRom_x : (s.setRom v).x = s.x := rfl
@[simp] theorem State.setRom_y : (s.setRom v).y = s.y := rfl
@[simp] theorem State.setRom_sp : (s.setRom v).sp = s.sp := rfl
@[simp] theorem State.setRom_pc : (s.setRom v).pc = s.pc := rfl
@[simp] theorem State.setRom_p : (s.setRom v).p = s.p := rfl
@[simp] theorem State.setRom_bank : (s.setRom v).bank = s.bank := rfl
@[simp] theorem State.setRom_ram : (s.setRom v).ram = s.ram := rfl
@[simp] theorem State.setRom_rom : (s.setRom v).rom = v := rfl
@[simp] theorem State.setRom_cart : (s.setRom v).cart = s.cart := rfl
@[simp] theorem State.setRom_dirty : (s.setRom v).dirty = s.dirty := rfl
@[simp] theorem State.setRom_fatal : (s.setRom v).fatal = s.fatal := rfl
@[simp] theorem State.setRom_draws : (s.setRom v).draws = s.draws := rfl
@[simp] theorem State.setRom_diag : (s.setRom v).diag = s.diag := rfl
@[simp] theorem State.setRom_host : (s.setRom v).host = s.host := rfl
@[simp] theorem State.setRom_setRom (w : Memory) : (s.setRom v).setRom w = s.setRom w := rfl
@[simp] theorem State.setRom_same : s.setRom s.rom = s := rfl

end setRom

section setDirty
variable (s : State) (v : Bool)

@[simp] theorem State.setDirty_config : (s.setDirty v).config = s.config := rfl
@[simp] theorem State.setDirty_a : (s.setDirty v).a = s.a := rfl
@[simp] theorem State.setDirty_x : (s.setDirty v).x = s.x := rfl
@[simp] theorem State.setDirty_y : (s.setDirty v).y = s.y := rfl
@[simp] theorem State.setDirty_sp : (s.setDirty v).sp = s.sp := rfl
@[simp] theorem State.setDirty_pc : (s.setDirty v).pc = s.pc := rfl
@[simp] theorem State.setDirty_p : (s.setDirty v).p = s.p := rfl
@[simp] theorem State.setDirty_bank : (s.setDirty v).bank = s.bank := rfl
@[simp] theorem State.setDirty_ram : (s.setDirty v).ram = s.ram := rfl
@[simp] theorem State.setDirty_rom : (s.setDirty v).rom = s.rom := rfl
@[simp] theorem State.setDirty_cart : (s.setDirty v).cart = s.cart := rfl
@[simp] theorem State.setDirty_dirty : (s.setDirty v).dirty = v := rfl
@[simp] theorem State.setDirty_fatal : (s.setDirty v).fatal = s.fatal := rfl
@[simp] theorem State.setDirty_draws : (s.setDirty v).draws = s.draws := rfl
@[simp] theorem State.setDirty_diag : (s.setDirty v).diag = s.diag := rfl
@[simp] theorem State.setDirty_host : (s.setDirty v).host = s.host := rfl
@[simp] theorem State.setDirty_setDirty (w : Bool) : (s.setDirty v).setDirty w = s.setDirty w := rfl
@[simp] theorem State.setDirty_same : s.setDirty s.dirty = s := rfl

end setDirty

section setFatal
variable (s : State) (v : Bool)

@[simp] theorem State.setFatal_config : (s.setFatal v).config = s.config := rfl
@[simp] theorem State.setFatal_a : (s.setFatal v).a = s.a := rfl
@[simp] theorem State.setFatal_x : (s.setFatal v).x = s.x := rfl
@[simp] theorem State.setFatal_y : (s.setFatal v).y = s.y := rfl
@[simp] theorem State.setFatal_sp : (s.setFatal v).sp = s.sp := rfl
@[simp] theorem State.setFatal_pc : (s.setFatal v).pc = s.pc := rfl
@[simp] theorem State.setFatal_p : (s.setFatal v).p = s.p := rfl
@[simp] theorem State.setFatal_bank : (s.setFatal v).bank = s.bank := rfl
@[simp] theorem State.setFatal_ram : (s.setFatal v).ram = s.ram := rfl
@[simp] theorem State.setFatal_rom : (s.setFatal v).rom = s.rom := rfl
@[simp] theorem State.setFatal_cart : (s.setFatal v).cart = s.cart := rfl
@[simp] theorem State.setFatal_dirty : (s.setFatal v).dirty = s.dirty := rfl
@[simp] theorem State.setFatal_fatal : (s.setFatal v).fatal = v := rfl
@[simp] theorem State.setFatal_draws : (s.setFatal v).draws = s.draws := rfl
@[simp] theorem State.setFatal_diag : (s.setFatal v).diag = s.diag := rfl
@[simp] theorem State.setFatal_host : (s.setFatal v).host = s.host := rfl
@[simp] theorem State.setFatal_setFatal (w : Bool) : (s.setFatal v).setFatal w = s.setFatal w := rfl
@[simp] theorem State.setFatal_same : s.setFatal s.fatal = s := rfl

end setFatal

section setDraws
variable (s : State) (v : Nat)

@[simp] theorem State.setDraws_config : (s.setDraws v).config = s.config := rfl
@[simp] theorem State.setDraws_a : (s.setDraws v).a = s.a := rfl
@[simp] theorem State.setDraws_x : (s.setDraws v).x = s.x := rfl
@[simp] theorem State.setDraws_y : (s.setDraws v).y = s.y := rfl
@[simp] theorem State.setDraws_sp : (s.setDraws v).sp = s.sp := rfl
@[simp] theorem State.setDraws_pc : (s.setDraws v).pc = s.pc := rfl
@[simp] theorem State.setDraws_p : (s.setDraws v).p = s.p := rfl
@[simp] theorem State.setDraws_bank : (s.setDraws v).bank = s.bank := rfl
@[simp] theorem State.setDraws_ram : (s.setDraws v).ram = s.ram := rfl
@[simp] theorem State.setDraws_rom : (s.setDraws v).rom = s.rom := rfl
@[simp] theorem State.setDraws_cart : (s.setDraws v).cart = s.cart := rfl
@[simp] theorem State.setDraws_dirty : (s.setDraws v).dirty = s.dirty := rfl
@[simp] theorem State.setDraws_fatal : (s.setDraws v).fatal = s.fatal := rfl
@[simp] theorem State.setDraws_draws : (s.setDraws v).draws = v := rfl
@[simp] theorem State.setDraws_diag : (s.setDraws v).diag = s.diag := rfl
@[simp] theorem State.setDraws_host : (s.setDraws v).host = s.host := rfl
@[simp] theorem State.setDraws_setDraws (w : Nat) : (s.setDraws v).setDraws w = s.setDraws w := rfl
@[simp] theorem State.setDraws_same : s.setDraws s.draws = s := rfl

end setDraws

section setDiag
variable (s : State) (v : List Diagnostic)

@[simp] theorem State.setDiag_config : (s.setDiag v).config = s.config := rfl
@[simp] theorem State.setDiag_a : (s.setDiag v).a = s.a := rfl
@[simp] theorem State.setDiag_x : (s.setDiag v).x = s.x := rfl
@[simp] theorem State.setDiag_y : (s.setDiag v).y = s.y := rfl
@[simp] theorem State.setDiag_sp : (s.setDiag v).sp = s.sp := rfl
@[simp] theorem State.setDiag_pc : (s.setDiag v).pc = s.pc := rfl
@[simp] theorem State.setDiag_p : (s.setDiag v).p = s.p := rfl
@[simp] theorem State.setDiag_bank : (s.setDiag v).bank = s.bank := rfl
@[simp] theorem State.setDiag_ram : (s.setDiag v).ram = s.ram := rfl
@[simp] theorem State.setDiag_rom : (s.setDiag v).rom = s.rom := rfl
@[simp] theorem State.setDiag_cart : (s.setDiag v).cart = s.cart := rfl
@[simp] theorem State.setDiag_dirty : (s.setDiag v).dirty = s.dirty := rfl
@[simp] theorem State.setDiag_fatal : (s.setDiag v).fatal = s.fatal := rfl
@[simp] theorem State.setDiag_draws : (s.setDiag v).draws = s.draws := rfl
@[simp] theorem State.setDiag_diag : (s.setDiag v).diag = v := rfl
@[simp] theorem State.setDiag_host : (s.setDiag v).host = s.host := rfl
@[simp] theorem State.setDiag_setDiag (w : List Diagnostic) : (s.setDiag v).setDiag w = s.setDiag w := rfl
@[simp] theorem State.setDiag_same : s.setDiag s.diag = s := rfl

end setDiag

section setHost
variable (s : State) (v : HostScript)

@[simp] theorem State.setHost_config : (s.setHost v).config = s.config := rfl
@[simp] theorem State.setHost_a : (s.setHost v).a = s.a := rfl
@[simp] theorem State.setHost_x : (s.setHost v).x = s.x := rfl
@[simp] theorem State.setHost_y : (s.setHost v).y = s.y := rfl
@[simp] theorem State.setHost_sp : (s.setHost v).sp = s.sp := rfl
@[simp] theorem State.setHost_pc : (s.setHost v).pc = s.pc := rfl
@[simp] theorem State.setHost_p : (s.setHost v).p = s.p := rfl
@[simp] theorem State.setHost_bank : (s.setHost v).bank = s.bank := rfl
@[simp] theorem State.setHost_ram : (s.setHost v).ram = s.ram := rfl
@[simp] theorem State.setHost_rom : (s.setHost v).rom = s.rom := rfl
@[simp] theorem State.setHost_cart : (s.setHost v).cart = s.cart := rfl
@[simp] theorem State.setHost_dirty : (s.setHost v).dirty = s.dirty := rfl
@[simp] theorem State.setHost_fatal : (s.setHost v).fatal = s.fatal := rfl
@[simp] theorem State.setHost_draws : (s.setHost v).draws = s.draws := rfl
@[simp] theorem State.setHost_diag : (s.setHost v).diag = s.diag := rfl
@[simp] theorem State.setHost_host : (s.setHost v).host = v := rfl
@[simp] theorem State.setHost_setHost (w : HostScript) : (s.setHost v).setHost w = s.setHost w := rfl
@[simp] theorem State.setHost_same : s.setHost s.host = s := rfl

end setHost

/-- Two states are equal when their sixteen fields are. -/
theorem State.eq_of_fields {s t : State} (hconfig : s.config = t.config)
    (ha : s.a = t.a) (hx : s.x = t.x) (hy : s.y = t.y) (hsp : s.sp = t.sp)
    (hpc : s.pc = t.pc) (hp : s.p = t.p) (hbank : s.bank = t.bank) (hram : s.ram = t.ram) (hrom : s.rom = t.rom)
    (hcart : s.cart = t.cart) (hdirty : s.dirty = t.dirty) (hfatal : s.fatal = t.fatal)
    (hdraws : s.draws = t.draws) (hdiag : s.diag = t.diag) (hhost : s.host = t.host) : s = t := by
  cases s
  cases t
  simp_all

end Sys2Proof.Machine
end

