-- ==== Sys2Proof/Laws/Ops.lean ====
section
/-! SUPPORT. Laws of the router, the register bank, the stack, exceptions and the host's actions: what each
operation can do, said once. -/

namespace Sys2Proof.Machine

/-! ### Words -/

@[simp] theorem toNat_zext16 (b : Byte) : (zext16 b).toNat = b.toNat := by
  have := b.isLt
  simp only [zext16, BitVec.toNat_setWidth]
  omega

@[simp] theorem mkWord_hiByte_loByte (w : Word) : mkWord (hiByte w) (loByte w) = w := by
  apply BitVec.eq_of_toNat_eq
  simp only [mkWord, hiByte, loByte, BitVec.toNat_append, BitVec.toNat_setWidth, BitVec.toNat_ushiftRight]
  rw [← Nat.shiftLeft_add_eq_or_of_lt (Nat.mod_lt _ (by decide)), Nat.shiftLeft_eq, Nat.shiftRight_eq_div_pow]
  have := w.isLt
  omega

/-- A word of two bytes as a number (R12). -/
theorem toNat_mkWord (h l : Byte) : (mkWord h l).toNat = h.toNat * 256 + l.toNat := by
  have hl := l.isLt
  rw [mkWord, BitVec.toNat_append, Nat.shiftLeft_eq, Nat.mul_comm, ← Nat.two_pow_add_eq_or_of_lt hl]

@[simp] theorem hiByte_mkWord (h l : Byte) : hiByte (mkWord h l) = h := by
  apply BitVec.eq_of_toNat_eq
  simp only [mkWord, hiByte, BitVec.toNat_append, BitVec.toNat_setWidth, BitVec.toNat_ushiftRight]
  rw [← Nat.shiftLeft_add_eq_or_of_lt l.isLt, Nat.shiftLeft_eq, Nat.shiftRight_eq_div_pow]
  have := h.isLt
  have := l.isLt
  omega

@[simp] theorem loByte_mkWord (h l : Byte) : loByte (mkWord h l) = l := by
  apply BitVec.eq_of_toNat_eq
  simp only [mkWord, loByte, BitVec.toNat_append, BitVec.toNat_setWidth]
  rw [← Nat.shiftLeft_add_eq_or_of_lt l.isLt, Nat.shiftLeft_eq]
  have := h.isLt
  have := l.isLt
  omega

/-! ### The address map -/

theorem region_eq_rom {a : Word} : region a = .rom ↔ 0x8000 ≤ a.toNat := by
  unfold region
  split <;> [skip; split] <;> simp_all

theorem region_eq_io {a : Word} : region a = .io ↔ 0x6000 ≤ a.toNat ∧ a.toNat ≤ 0x600F := by
  unfold region
  split <;> [skip; split]
  · simp only [reduceCtorEq, false_iff]
    omega
  · simp_all
  · simp_all

/-- RAM as the router sees it, as a proposition on numbers (R51). -/
abbrev ramAddressBelow (n : Nat) : Prop := n < 0x6000 ∨ (0x6010 ≤ n ∧ n < 0x8000)

theorem region_eq_ram {a : Word} : region a = .ram ↔ ramAddressBelow a.toNat := by
  unfold region ramAddressBelow
  split <;> [skip; split]
  · simp only [reduceCtorEq, false_iff]
    omega
  · simp only [reduceCtorEq, false_iff]
    omega
  · simp only [true_iff]
    omega

/-- In the window the slot index is the distance from `0x6000` (R53). -/
theorem slotOf_io {a : Word} (h : region a = .io) : slotOf a = a.toNat - 0x6000 := by
  rw [region_eq_io] at h
  unfold slotOf
  omega

/-! ### Reads -/

/-- Everything a read can do to the state: nothing, one draw (slot 9), or one diagnostic (slots 10 to 14). -/
theorem afterRead_cases (a : Word) (s : State) :
    afterRead a s = s ∨ (a = 0x6009 ∧ afterRead a s = s.setDraws (s.draws + 1)) ∨
      (0x600A ≤ a.toNat ∧ a.toNat ≤ 0x600E ∧ afterRead a s = s.setDiag (.invalidRegister (a.toNat - 0x6000) :: s.diag)) := by
  unfold afterRead
  split
  · rename_i h
    have hs := slotOf_io h
    rw [region_eq_io] at h
    unfold afterRegRead
    split
    · rename_i h9
      refine .inr (.inl ⟨?_, rfl⟩)
      apply BitVec.eq_of_toNat_eq
      show a.toNat = 0x6009
      omega
    all_goals first | exact .inl rfl | exact .inr (.inr ⟨by omega, by omega, by rw [← hs]; simp_all [logDiag]⟩)
  · exact .inl rfl

/-- A read outside `0x6009-0x600E` has no effect (R85). -/
theorem afterRead_eq_self {a : Word} (s : State) (h : a.toNat < 0x6009 ∨ 0x600E < a.toNat) : afterRead a s = s := by
  rcases afterRead_cases a s with h' | ⟨rfl, _⟩ | ⟨h1, h2, _⟩
  · exact h'
  · simp at h
  · omega

@[simp] theorem afterRead_config (a : Word) (s : State) : (afterRead a s).config = s.config := by
  rcases afterRead_cases a s with h | ⟨_, h⟩ | ⟨_, _, h⟩ <;> rw [h] <;> rfl

@[simp] theorem afterRead_a (a : Word) (s : State) : (afterRead a s).a = s.a := by
  rcases afterRead_cases a s with h | ⟨_, h⟩ | ⟨_, _, h⟩ <;> rw [h] <;> rfl

@[simp] theorem afterRead_x (a : Word) (s : State) : (afterRead a s).x = s.x := by
  rcases afterRead_cases a s with h | ⟨_, h⟩ | ⟨_, _, h⟩ <;> rw [h] <;> rfl

@[simp] theorem afterRead_y (a : Word) (s : State) : (afterRead a s).y = s.y := by
  rcases afterRead_cases a s with h | ⟨_, h⟩ | ⟨_, _, h⟩ <;> rw [h] <;> rfl

@[simp] theorem afterRead_sp (a : Word) (s : State) : (afterRead a s).sp = s.sp := by
  rcases afterRead_cases a s with h | ⟨_, h⟩ | ⟨_, _, h⟩ <;> rw [h] <;> rfl

@[simp] theorem afterRead_pc (a : Word) (s : State) : (afterRead a s).pc = s.pc := by
  rcases afterRead_cases a s with h | ⟨_, h⟩ | ⟨_, _, h⟩ <;> rw [h] <;> rfl

@[simp] theorem afterRead_p (a : Word) (s : State) : (afterRead a s).p = s.p := by
  rcases afterRead_cases a s with h | ⟨_, h⟩ | ⟨_, _, h⟩ <;> rw [h] <;> rfl

@[simp] theorem afterRead_bank (a : Word) (s : State) : (afterRead a s).bank = s.bank := by
  rcases afterRead_cases a s with h | ⟨_, h⟩ | ⟨_, _, h⟩ <;> rw [h] <;> rfl

@[simp] theorem afterRead_ram (a : Word) (s : State) : (afterRead a s).ram = s.ram := by
  rcases afterRead_cases a s with h | ⟨_, h⟩ | ⟨_, _, h⟩ <;> rw [h] <;> rfl

@[simp] theorem afterRead_rom (a : Word) (s : State) : (afterRead a s).rom = s.rom := by
  rcases afterRead_cases a s with h | ⟨_, h⟩ | ⟨_, _, h⟩ <;> rw [h] <;> rfl

@[simp] theorem afterRead_cart (a : Word) (s : State) : (afterRead a s).cart = s.cart := by
  rcases afterRead_cases a s with h | ⟨_, h⟩ | ⟨_, _, h⟩ <;> rw [h] <;> rfl

@[simp] theorem afterRead_dirty (a : Word) (s : State) : (afterRead a s).dirty = s.dirty := by
  rcases afterRead_cases a s with h | ⟨_, h⟩ | ⟨_, _, h⟩ <;> rw [h] <;> rfl

@[simp] theorem afterRead_fatal (a : Word) (s : State) : (afterRead a s).fatal = s.fatal := by
  rcases afterRead_cases a s with h | ⟨_, h⟩ | ⟨_, _, h⟩ <;> rw [h] <;> rfl

@[simp] theorem afterRead_host (a : Word) (s : State) : (afterRead a s).host = s.host := by
  rcases afterRead_cases a s with h | ⟨_, h⟩ | ⟨_, _, h⟩ <;> rw [h] <;> rfl

/-- The byte at an address depends on the stores, the bank and the parameters, and at slot 9 on the draw counter,
alone. -/
theorem byteAt_congr {s t : State} {a : Word} (hram : t.ram = s.ram) (hrom : t.rom = s.rom) (hcart : t.cart = s.cart)
    (hbank : t.bank = s.bank) (hconfig : t.config = s.config) (hdraws : a = 0x6009 → t.draws = s.draws) :
    byteAt t a = byteAt s a := by
  unfold byteAt
  split
  · rw [hrom]
  · rename_i h
    have hs := slotOf_io h
    rw [region_eq_io] at h
    unfold regRead
    rw [hbank, hcart, hconfig]
    split <;> first | rfl | skip
    rw [hdraws]
    apply BitVec.eq_of_toNat_eq
    show a.toNat = 0x6009
    omega
  · rw [hram]

@[simp] theorem byteAt_setA (s : State) (v) (a : Word) : byteAt (s.setA v) a = byteAt s a :=
  byteAt_congr rfl rfl rfl rfl rfl fun _ => rfl

@[simp] theorem byteAt_setX (s : State) (v) (a : Word) : byteAt (s.setX v) a = byteAt s a :=
  byteAt_congr rfl rfl rfl rfl rfl fun _ => rfl

@[simp] theorem byteAt_setY (s : State) (v) (a : Word) : byteAt (s.setY v) a = byteAt s a :=
  byteAt_congr rfl rfl rfl rfl rfl fun _ => rfl

@[simp] theorem byteAt_setSp (s : State) (v) (a : Word) : byteAt (s.setSp v) a = byteAt s a :=
  byteAt_congr rfl rfl rfl rfl rfl fun _ => rfl

@[simp] theorem byteAt_setPc (s : State) (v) (a : Word) : byteAt (s.setPc v) a = byteAt s a :=
  byteAt_congr rfl rfl rfl rfl rfl fun _ => rfl

@[simp] theorem byteAt_setP (s : State) (v) (a : Word) : byteAt (s.setP v) a = byteAt s a :=
  byteAt_congr rfl rfl rfl rfl rfl fun _ => rfl

@[simp] theorem byteAt_setDirty (s : State) (v) (a : Word) : byteAt (s.setDirty v) a = byteAt s a :=
  byteAt_congr rfl rfl rfl rfl rfl fun _ => rfl

@[simp] theorem byteAt_setFatal (s : State) (v) (a : Word) : byteAt (s.setFatal v) a = byteAt s a :=
  byteAt_congr rfl rfl rfl rfl rfl fun _ => rfl

@[simp] theorem byteAt_setDiag (s : State) (v) (a : Word) : byteAt (s.setDiag v) a = byteAt s a :=
  byteAt_congr rfl rfl rfl rfl rfl fun _ => rfl

@[simp] theorem byteAt_setHost (s : State) (v) (a : Word) : byteAt (s.setHost v) a = byteAt s a :=
  byteAt_congr rfl rfl rfl rfl rfl fun _ => rfl

theorem byteAt_setDraws {a : Word} (s : State) (v : Nat) (h : a ≠ 0x6009) : byteAt (s.setDraws v) a = byteAt s a :=
  byteAt_congr rfl rfl rfl rfl rfl fun h' => absurd h' h

/-- Reading one address does not change what another gives, nor what it itself gives unless it is slot 9. -/
theorem byteAt_afterRead {a b : Word} (s : State) (h : b = 0x6009 → a ≠ 0x6009) :
    byteAt (afterRead a s) b = byteAt s b := by
  refine byteAt_congr (by simp) (by simp) (by simp) (by simp) (by simp) fun hb => ?_
  rcases afterRead_cases a s with h' | ⟨ha, _⟩ | ⟨_, _, h'⟩
  · rw [h']
  · exact absurd ha (h hb)
  · rw [h', State.setDiag_draws]

theorem byteAt_ram {s : State} {a : Word} (h : region a = .ram) : byteAt s a = s.ram.read a.toNat := by
  simp only [byteAt, h]

theorem byteAt_rom {s : State} {a : Word} (h : region a = .rom) : byteAt s a = s.rom.read (a.toNat - 0x8000) := by
  simp only [byteAt, h]

/-- A slot of the bank shows the same byte when the bank, the cartridge, the parameters and the draw counter
are the same. -/
theorem byteAt_of_slot {s t : State} {a : Word} (h : region a = .io) (hbank : t.bank = s.bank)
    (hcart : t.cart = s.cart) (hconfig : t.config = s.config) (hdraws : t.draws = s.draws) : byteAt t a = byteAt s a := by
  simp only [byteAt, h]
  unfold regRead
  rw [hbank, hcart, hconfig, hdraws]

/-! ### Writes -/

/-- Everything a byte write can do (R60): drop it with a diagnostic, change one slot of the bank, stop the machine
(slot 8), or store in RAM, setting the dirty flag in the framebuffer window. -/
theorem writeByte_cases (a : Word) (v : Byte) (s : State) :
    (∃ d, writeByte a v s = logDiag d s) ∨
    (region a = .io ∧ a ≠ 0x6008 ∧ ∃ b, writeByte a v s = s.setBank b) ∨
    (a = 0x6008 ∧ writeByte a v s = s.setFatal true) ∨
    (region a = .ram ∧ writeByte a v s =
      if inFramebuffer a then (s.setRam (s.ram.write a.toNat v)).setDirty true
      else s.setRam (s.ram.write a.toNat v)) := by
  unfold writeByte
  split
  · exact .inl ⟨_, rfl⟩
  · rename_i h
    have hs := slotOf_io h
    have h' := h
    rw [region_eq_io] at h'
    have h8 : a = 0x6008 ↔ slotOf a = 8 := by
      rw [hs]
      constructor
      · rintro rfl
        rfl
      · intro h8
        apply BitVec.eq_of_toNat_eq
        show a.toNat = 0x6008
        omega
    unfold regWrite
    split
    case h_9 h8' => exact .inr (.inr (.inl ⟨h8.2 h8', rfl⟩))
    all_goals first
      | exact .inl ⟨_, rfl⟩
      | exact .inr (.inl ⟨h, fun h' => by have := h8.1 h'; omega, _, rfl⟩)
  · exact .inr (.inr (.inr ⟨‹_›, rfl⟩))

@[simp] theorem writeByte_config (a : Word) (v : Byte) (s : State) : (writeByte a v s).config = s.config := by
  rcases writeByte_cases a v s with ⟨_, h⟩ | ⟨_, _, _, h⟩ | ⟨_, h⟩ | ⟨_, h⟩ <;> rw [h] <;>
    first | rfl | (split <;> rfl)

@[simp] theorem writeByte_a (a : Word) (v : Byte) (s : State) : (writeByte a v s).a = s.a := by
  rcases writeByte_cases a v s with ⟨_, h⟩ | ⟨_, _, _, h⟩ | ⟨_, h⟩ | ⟨_, h⟩ <;> rw [h] <;>
    first | rfl | (split <;> rfl)

@[simp] theorem writeByte_x (a : Word) (v : Byte) (s : State) : (writeByte a v s).x = s.x := by
  rcases writeByte_cases a v s with ⟨_, h⟩ | ⟨_, _, _, h⟩ | ⟨_, h⟩ | ⟨_, h⟩ <;> rw [h] <;>
    first | rfl | (split <;> rfl)

@[simp] theorem writeByte_y (a : Word) (v : Byte) (s : State) : (writeByte a v s).y = s.y := by
  rcases writeByte_cases a v s with ⟨_, h⟩ | ⟨_, _, _, h⟩ | ⟨_, h⟩ | ⟨_, h⟩ <;> rw [h] <;>
    first | rfl | (split <;> rfl)

@[simp] theorem writeByte_sp (a : Word) (v : Byte) (s : State) : (writeByte a v s).sp = s.sp := by
  rcases writeByte_cases a v s with ⟨_, h⟩ | ⟨_, _, _, h⟩ | ⟨_, h⟩ | ⟨_, h⟩ <;> rw [h] <;>
    first | rfl | (split <;> rfl)

@[simp] theorem writeByte_pc (a : Word) (v : Byte) (s : State) : (writeByte a v s).pc = s.pc := by
  rcases writeByte_cases a v s with ⟨_, h⟩ | ⟨_, _, _, h⟩ | ⟨_, h⟩ | ⟨_, h⟩ <;> rw [h] <;>
    first | rfl | (split <;> rfl)

@[simp] theorem writeByte_p (a : Word) (v : Byte) (s : State) : (writeByte a v s).p = s.p := by
  rcases writeByte_cases a v s with ⟨_, h⟩ | ⟨_, _, _, h⟩ | ⟨_, h⟩ | ⟨_, h⟩ <;> rw [h] <;>
    first | rfl | (split <;> rfl)

@[simp] theorem writeByte_rom (a : Word) (v : Byte) (s : State) : (writeByte a v s).rom = s.rom := by
  rcases writeByte_cases a v s with ⟨_, h⟩ | ⟨_, _, _, h⟩ | ⟨_, h⟩ | ⟨_, h⟩ <;> rw [h] <;>
    first | rfl | (split <;> rfl)

@[simp] theorem writeByte_cart (a : Word) (v : Byte) (s : State) : (writeByte a v s).cart = s.cart := by
  rcases writeByte_cases a v s with ⟨_, h⟩ | ⟨_, _, _, h⟩ | ⟨_, h⟩ | ⟨_, h⟩ <;> rw [h] <;>
    first | rfl | (split <;> rfl)

@[simp] theorem writeByte_draws (a : Word) (v : Byte) (s : State) : (writeByte a v s).draws = s.draws := by
  rcases writeByte_cases a v s with ⟨_, h⟩ | ⟨_, _, _, h⟩ | ⟨_, h⟩ | ⟨_, h⟩ <;> rw [h] <;>
    first | rfl | (split <;> rfl)

@[simp] theorem writeByte_host (a : Word) (v : Byte) (s : State) : (writeByte a v s).host = s.host := by
  rcases writeByte_cases a v s with ⟨_, h⟩ | ⟨_, _, _, h⟩ | ⟨_, h⟩ | ⟨_, h⟩ <;> rw [h] <;>
    first | rfl | (split <;> rfl)

/-- A byte write stops the machine exactly at `0x6008` (R78). -/
theorem writeByte_fatal (a : Word) (v : Byte) (s : State) :
    (writeByte a v s).fatal = (decide (a = 0x6008) || s.fatal) := by
  by_cases ha : a = 0x6008
  · subst ha
    rfl
  · rw [decide_eq_false ha, Bool.false_or]
    rcases writeByte_cases a v s with ⟨_, h⟩ | ⟨_, _, _, h⟩ | ⟨h', _⟩ | ⟨_, h⟩
    · rw [h]
      rfl
    · rw [h]
      rfl
    · exact absurd h' ha
    · rw [h]
      split <;> rfl

theorem inFramebuffer_ram {a : Word} (h : inFramebuffer a = true) : region a = .ram := by
  rw [region_eq_ram]
  simp only [inFramebuffer, Bool.and_eq_true, decide_eq_true_eq] at h
  unfold ramAddressBelow
  omega

/-- A byte write sets the dirty flag exactly in the framebuffer window and never clears it (R54). -/
theorem writeByte_dirty (a : Word) (v : Byte) (s : State) :
    (writeByte a v s).dirty = (inFramebuffer a || s.dirty) := by
  cases hf : inFramebuffer a with
  | true => simp [writeByte, inFramebuffer_ram hf, hf]
  | false =>
    rcases writeByte_cases a v s with ⟨_, h⟩ | ⟨_, _, _, h⟩ | ⟨_, h⟩ | ⟨_, h⟩ <;> rw [h] <;>
      simp [logDiag, hf]

theorem writeByte_ram (a : Word) (v : Byte) (s : State) :
    (writeByte a v s).ram = if region a = .ram then s.ram.write a.toNat v else s.ram := by
  cases hr : region a with
  | ram =>
    simp only [writeByte, hr, if_true]
    split <;> simp
  | rom => simp [writeByte, hr, logDiag]
  | io =>
    simp only [writeByte, hr, reduceCtorEq, if_false]
    unfold regWrite
    split <;> simp [logDiag]

theorem writeByte_bank_of_ne_io {a : Word} (v : Byte) (s : State) (h : region a ≠ .io) :
    (writeByte a v s).bank = s.bank := by
  rcases writeByte_cases a v s with ⟨_, h'⟩ | ⟨h', _⟩ | ⟨rfl, _⟩ | ⟨_, h'⟩
  · rw [h']
    rfl
  · exact absurd h' h
  · exact absurd rfl h
  · rw [h']
    split <;> rfl

/-- A write changes what no other address reads as, except that the cartridge pointer (slots 5 to 7) selects what
slot 8 shows (R52, R76, R77). -/
theorem byteAt_writeByte_ne {a b : Word} (v : Byte) (s : State) (h : b ≠ a)
    (hp : b = 0x6008 → a ≠ 0x6005 ∧ a ≠ 0x6006 ∧ a ≠ 0x6007) : byteAt (writeByte a v s) b = byteAt s b := by
  have hn : b.toNat ≠ a.toNat := fun e => h (BitVec.eq_of_toNat_eq e)
  cases hb : region b with
  | rom => rw [byteAt_rom hb, byteAt_rom hb, writeByte_rom]
  | ram =>
    rw [byteAt_ram hb, byteAt_ram hb, writeByte_ram]
    split
    · exact Memory.read_write_ne _ _ hn
    · rfl
  | io =>
    by_cases ha : region a = .io
    · have hsa := slotOf_io ha
      have hsb := slotOf_io hb
      have hai := ha
      rw [region_eq_io] at ha hb
      have hne : slotOf b ≠ slotOf a := by omega
      have hp' : slotOf b = 8 → slotOf a ≠ 5 ∧ slotOf a ≠ 6 ∧ slotOf a ≠ 7 := by
        intro h8
        have hb8 : b = 0x6008 := by
          apply BitVec.eq_of_toNat_eq
          show b.toNat = 0x6008
          omega
        obtain ⟨h5, h6, h7⟩ := hp hb8
        exact ⟨fun e => h5 (BitVec.eq_of_toNat_eq (show a.toNat = 0x6005 by omega)),
          fun e => h6 (BitVec.eq_of_toNat_eq (show a.toNat = 0x6006 by omega)),
          fun e => h7 (BitVec.eq_of_toNat_eq (show a.toNat = 0x6007 by omega))⟩
      simp only [byteAt, region_eq_io.2 hb, writeByte, hai]
      generalize slotOf a = i at *
      generalize slotOf b = j at *
      unfold regWrite
      split <;> unfold regRead <;> split <;> first | rfl | omega
    · refine byteAt_of_slot hb ?_ ?_ ?_ ?_
      · exact writeByte_bank_of_ne_io v s ha
      · simp
      · simp
      · simp

/-- What an address reads as after a write to it: the byte in RAM and in slots 0 to 7 and 15, what it read as
before everywhere else (R52, R55, R70). -/
theorem byteAt_writeByte_same (a : Word) (v : Byte) (s : State) (hw : s.ram.wf) :
    byteAt (writeByte a v s) a =
      match region a with
      | .ram => v
      | .rom => byteAt s a
      | .io => if slotOf a ≤ 7 ∨ slotOf a = 15 then v else byteAt s a := by
  cases ha : region a with
  | ram => simp only [byteAt_ram ha, writeByte_ram, ha, if_true, Memory.read_write_same _ _ _ hw]
  | rom => simp only [byteAt_rom ha, writeByte_rom]
  | io =>
    simp only [byteAt, writeByte, ha]
    have hs : slotOf a < 16 := Nat.mod_lt _ (by decide)
    generalize slotOf a = i at *
    interval_cases i <;>
      simp [regWrite, regRead, logDiag, cartPointer, State.setBank, State.setFatal, State.setDiag]

/-! ### The stack -/

theorem toNat_stackAddr (b : Byte) : (stackAddr b).toNat = 0x100 + b.toNat := by
  have := b.isLt
  have h : (0x0100 : Word).toNat = 0x100 := rfl
  simp only [stackAddr, BitVec.toNat_add, toNat_zext16, h]
  omega

@[simp] theorem region_stackAddr (b : Byte) : region (stackAddr b) = .ram := by
  have := b.isLt
  rw [region_eq_ram, toNat_stackAddr]
  unfold ramAddressBelow
  omega

theorem stackAddr_inj {b c : Byte} (h : stackAddr b = stackAddr c) : b = c := by
  have hb := toNat_stackAddr b
  have hc := toNat_stackAddr c
  rw [h] at hb
  apply BitVec.eq_of_toNat_eq
  omega

/-- A push is a plain RAM write: it sets no dirty flag, is never rejected and never Fatal (R170). -/
theorem push8_eq (v : Byte) (s : State) :
    push8 v s = (s.setSp (s.sp - 1)).setRam
      (s.ram.write (stackAddr (pushSlot s.config.stackDiscipline s.sp)).toNat v) := by
  have hf : ∀ b, inFramebuffer (stackAddr b) = false := by
    intro b
    have := b.isLt
    simp only [inFramebuffer, toNat_stackAddr, Bool.and_eq_false_iff, decide_eq_false_iff_not]
    omega
  simp only [push8, writeByte, region_stackAddr, hf]
  rfl

/-- The byte at `b` after a push. -/
theorem byteAt_push8 (v : Byte) (s : State) (b : Word) (hw : s.ram.wf) :
    byteAt (push8 v s) b =
      if b = stackAddr (pushSlot s.config.stackDiscipline s.sp) then v else byteAt s b := by
  have hs := region_stackAddr (pushSlot s.config.stackDiscipline s.sp)
  have hn := toNat_stackAddr (pushSlot s.config.stackDiscipline s.sp)
  split
  · subst b
    rw [byteAt_ram hs, push8_eq]
    exact Memory.read_write_same _ _ _ hw
  · rename_i h
    unfold push8
    rw [byteAt_writeByte_ne v _ h]
    · exact byteAt_setSp _ _ _
    · intro _
      refine ⟨?_, ?_, ?_⟩ <;> intro e <;> rw [e] at hs <;> exact absurd hs (by decide)

/-- `Pop8()` after `Push8(v)` returns `v` and restores `SP` (R171), whichever the stack discipline. -/
theorem pop8_push8 (v : Byte) (s : State) (hw : s.ram.wf) :
    (pop8 (push8 v s)).1 = v ∧ (pop8 (push8 v s)).2.sp = s.sp := by
  constructor
  · unfold pop8
    rw [byteAt_push8 v s _ hw, if_pos]
    rw [push8_eq]
    simp only [State.setRam_sp, State.setSp_sp, State.setRam_config, State.setSp_config]
    cases s.config.stackDiscipline <;> simp [popSlot, pushSlot]
  · simp [pop8, push8_eq]

/-- A byte of the stack page is RAM at 0x0100 and up (R22). -/
theorem byteAt_stackAddr (s : State) (b : Byte) : byteAt s (stackAddr b) = s.ram.read (0x100 + b.toNat) := by
  rw [byteAt_ram (region_stackAddr b), toNat_stackAddr]

/-- A push as a write of RAM by number (R170). -/
theorem push8_eq_ram (v : Byte) (s : State) :
    push8 v s = (s.setSp (s.sp - 1)).setRam
      (s.ram.write (0x100 + (pushSlot s.config.stackDiscipline s.sp).toNat) v) := by
  rw [push8_eq, toNat_stackAddr]

/-- A pull as a read of RAM by number (R171). -/
theorem pop8_eq_ram (s : State) :
    pop8 s = (s.ram.read (0x100 + (popSlot s.config.stackDiscipline s.sp).toNat), s.setSp (s.sp + 1)) := by
  simp only [pop8, byteAt_stackAddr]

/-- The word a pull of two bytes gives (R172). -/
theorem pop16_eq_ram (s : State) :
    pop16 s = (mkWord (s.ram.read (0x100 + (popSlot s.config.stackDiscipline (s.sp + 1)).toNat))
      (s.ram.read (0x100 + (popSlot s.config.stackDiscipline s.sp).toNat)), s.setSp (s.sp + 1 + 1)) := by
  simp only [pop16, pop8_eq_ram, State.setSp_sp, State.setSp_ram, State.setSp_config, State.setSp_setSp]

end Sys2Proof.Machine
end

