-- ==== Sys2Proof/Laws/Access.lean ====
section
/-! SUPPORT. Laws of the stack words, exception entry and return, fetching and operand access: each operation's
effect on every field, said once. -/

namespace Sys2Proof.Machine

/-! ### Pushes -/

@[simp] theorem push8_config (v : Byte) (s : State) : (push8 v s).config = s.config := by
  rw [push8_eq]
  rfl

@[simp] theorem push8_a (v : Byte) (s : State) : (push8 v s).a = s.a := by
  rw [push8_eq]
  rfl

@[simp] theorem push8_x (v : Byte) (s : State) : (push8 v s).x = s.x := by
  rw [push8_eq]
  rfl

@[simp] theorem push8_y (v : Byte) (s : State) : (push8 v s).y = s.y := by
  rw [push8_eq]
  rfl

@[simp] theorem push8_pc (v : Byte) (s : State) : (push8 v s).pc = s.pc := by
  rw [push8_eq]
  rfl

@[simp] theorem push8_p (v : Byte) (s : State) : (push8 v s).p = s.p := by
  rw [push8_eq]
  rfl

@[simp] theorem push8_bank (v : Byte) (s : State) : (push8 v s).bank = s.bank := by
  rw [push8_eq]
  rfl

@[simp] theorem push8_rom (v : Byte) (s : State) : (push8 v s).rom = s.rom := by
  rw [push8_eq]
  rfl

@[simp] theorem push8_cart (v : Byte) (s : State) : (push8 v s).cart = s.cart := by
  rw [push8_eq]
  rfl

@[simp] theorem push8_dirty (v : Byte) (s : State) : (push8 v s).dirty = s.dirty := by
  rw [push8_eq]
  rfl

@[simp] theorem push8_fatal (v : Byte) (s : State) : (push8 v s).fatal = s.fatal := by
  rw [push8_eq]
  rfl

@[simp] theorem push8_draws (v : Byte) (s : State) : (push8 v s).draws = s.draws := by
  rw [push8_eq]
  rfl

@[simp] theorem push8_diag (v : Byte) (s : State) : (push8 v s).diag = s.diag := by
  rw [push8_eq]
  rfl

@[simp] theorem push8_host (v : Byte) (s : State) : (push8 v s).host = s.host := by
  rw [push8_eq]
  rfl

@[simp] theorem push8_sp (v : Byte) (s : State) : (push8 v s).sp = s.sp - 1 := by
  rw [push8_eq]
  rfl

theorem push8_ram_wf (v : Byte) {s : State} (hw : s.ram.wf) : (push8 v s).ram.wf := by
  rw [push8_eq]
  exact Memory.wf_write _ _ hw

@[simp] theorem pop8_snd (s : State) : (pop8 s).2 = s.setSp (s.sp + 1) := rfl

@[simp] theorem pop16_snd (s : State) : (pop16 s).2 = s.setSp (s.sp + 1 + 1) := rfl

/-- `Pop16()` after `Push16(w)` returns `w` and restores `SP` (R172). -/
theorem pop16_push16 (w : Word) (s : State) (hw : s.ram.wf) :
    (pop16 (push16 w s)).1 = w ∧ (pop16 (push16 w s)).2.sp = s.sp := by
  have hw1 := push8_ram_wf (hiByte w) hw
  constructor
  · have hlo := (pop8_push8 (loByte w) (push8 (hiByte w) s) hw1).1
    have hhi : (pop8 (pop8 (push8 (loByte w) (push8 (hiByte w) s))).2).1 = hiByte w := by
      have h := (pop8_push8 (hiByte w) s hw).1
      unfold pop8 at h ⊢
      simp only [push8_sp, push8_config, sub_add_cancel, State.setSp_sp, State.setSp_config, byteAt_setSp] at h ⊢
      rw [byteAt_push8 _ _ _ hw1, push8_sp, push8_config, if_neg, h]
      intro e
      have := stackAddr_inj e
      have hne : ∀ d : StackDiscipline, ∀ b : Byte, popSlot d (b - 1) ≠ pushSlot d (b - 1) := by
        intro d
        cases d <;> decide
      exact hne _ _ this
    simp only [pop16, push16, hlo, hhi, mkWord_hiByte_loByte]
  · rw [pop16_snd]
    simp [push16]

/-! ### Reads of two bytes -/

/-- A word read that stays outside `0x6009-0x600E` has no effect, and its value is the word there (R61). -/
theorem readWord_eq {a : Word} (s : State) (h : a.toNat < 0x6009 ∨ 0x600E < a.toNat)
    (h' : (a + 1).toNat < 0x6009 ∨ 0x600E < (a + 1).toNat) : readWord a s = (wordAt s a, s) := by
  simp only [readWord, readPair, afterRead_eq_self _ h, afterRead_eq_self _ h', wordAt]

/-- Everything a word read can do to the state. -/
theorem readPair_snd (lo hi : Word) (s : State) : (readPair lo hi s).2 = afterRead hi (afterRead lo s) := rfl

/-! ### Exceptions -/

/-- Taking an exception, as an equation: three pushes, `PC` from the vector, flags set (R259). -/
theorem takeException_eq (ret : Word) {vector : Word} (set : Byte) (s : State) (h : region vector = .rom)
    (h' : region (vector + 1) = .rom) :
    takeException ret vector set s =
      ((pushP (push16 ret s)).setPc (wordAt s vector)).setP (s.p ||| set) := by
  have hr := region_eq_rom.1 h
  have hr' := region_eq_rom.1 h'
  have hv : wordAt (pushP (push16 ret s)) vector = wordAt s vector := by
    simp only [wordAt, byteAt_rom h, byteAt_rom h', pushP, push16, push8_rom]
  simp only [takeException, readWord_eq (pushP (push16 ret s)) (.inr (by omega : 0x600E < vector.toNat))
    (.inr (by omega)), hv]
  simp [pushP, push16]

/-- Returning from an exception: `P` and `PC` from the stack, `SP` three up, nothing else (R260). -/
theorem returnFromException_eq (s : State) :
    returnFromException s =
      ((s.setSp (s.sp + 1 + 1 + 1)).setP (restoredOnPop s.config.forceMask (pop8 s).1)).setPc
        (pop16 (s.setSp (s.sp + 1))).1 := rfl

/-! ### Fetching -/

@[simp] theorem fetch8_fst (s : State) : (fetch8 s).1 = byteAt s s.pc := rfl

@[simp] theorem fetch8_pc (s : State) : (fetch8 s).2.pc = s.pc + 1 := rfl

@[simp] theorem fetch8_config (s : State) : (fetch8 s).2.config = s.config := by
  simp [fetch8]

@[simp] theorem afterFetches_config (n : Nat) (s : State) : (afterFetches n s).config = s.config := by
  induction n generalizing s with
  | zero => rfl
  | succ n ih => rw [afterFetches, ih, fetch8_config]

@[simp] theorem fetch8_a (s : State) : (fetch8 s).2.a = s.a := by
  simp [fetch8]

@[simp] theorem afterFetches_a (n : Nat) (s : State) : (afterFetches n s).a = s.a := by
  induction n generalizing s with
  | zero => rfl
  | succ n ih => rw [afterFetches, ih, fetch8_a]

@[simp] theorem fetch8_x (s : State) : (fetch8 s).2.x = s.x := by
  simp [fetch8]

@[simp] theorem afterFetches_x (n : Nat) (s : State) : (afterFetches n s).x = s.x := by
  induction n generalizing s with
  | zero => rfl
  | succ n ih => rw [afterFetches, ih, fetch8_x]

@[simp] theorem fetch8_y (s : State) : (fetch8 s).2.y = s.y := by
  simp [fetch8]

@[simp] theorem afterFetches_y (n : Nat) (s : State) : (afterFetches n s).y = s.y := by
  induction n generalizing s with
  | zero => rfl
  | succ n ih => rw [afterFetches, ih, fetch8_y]

@[simp] theorem fetch8_sp (s : State) : (fetch8 s).2.sp = s.sp := by
  simp [fetch8]

@[simp] theorem afterFetches_sp (n : Nat) (s : State) : (afterFetches n s).sp = s.sp := by
  induction n generalizing s with
  | zero => rfl
  | succ n ih => rw [afterFetches, ih, fetch8_sp]

@[simp] theorem fetch8_p (s : State) : (fetch8 s).2.p = s.p := by
  simp [fetch8]

@[simp] theorem afterFetches_p (n : Nat) (s : State) : (afterFetches n s).p = s.p := by
  induction n generalizing s with
  | zero => rfl
  | succ n ih => rw [afterFetches, ih, fetch8_p]

@[simp] theorem fetch8_bank (s : State) : (fetch8 s).2.bank = s.bank := by
  simp [fetch8]

@[simp] theorem afterFetches_bank (n : Nat) (s : State) : (afterFetches n s).bank = s.bank := by
  induction n generalizing s with
  | zero => rfl
  | succ n ih => rw [afterFetches, ih, fetch8_bank]

@[simp] theorem fetch8_ram (s : State) : (fetch8 s).2.ram = s.ram := by
  simp [fetch8]

@[simp] theorem afterFetches_ram (n : Nat) (s : State) : (afterFetches n s).ram = s.ram := by
  induction n generalizing s with
  | zero => rfl
  | succ n ih => rw [afterFetches, ih, fetch8_ram]

@[simp] theorem fetch8_rom (s : State) : (fetch8 s).2.rom = s.rom := by
  simp [fetch8]

@[simp] theorem afterFetches_rom (n : Nat) (s : State) : (afterFetches n s).rom = s.rom := by
  induction n generalizing s with
  | zero => rfl
  | succ n ih => rw [afterFetches, ih, fetch8_rom]

@[simp] theorem fetch8_cart (s : State) : (fetch8 s).2.cart = s.cart := by
  simp [fetch8]

@[simp] theorem afterFetches_cart (n : Nat) (s : State) : (afterFetches n s).cart = s.cart := by
  induction n generalizing s with
  | zero => rfl
  | succ n ih => rw [afterFetches, ih, fetch8_cart]

@[simp] theorem fetch8_dirty (s : State) : (fetch8 s).2.dirty = s.dirty := by
  simp [fetch8]

@[simp] theorem afterFetches_dirty (n : Nat) (s : State) : (afterFetches n s).dirty = s.dirty := by
  induction n generalizing s with
  | zero => rfl
  | succ n ih => rw [afterFetches, ih, fetch8_dirty]

@[simp] theorem fetch8_fatal (s : State) : (fetch8 s).2.fatal = s.fatal := by
  simp [fetch8]

@[simp] theorem afterFetches_fatal (n : Nat) (s : State) : (afterFetches n s).fatal = s.fatal := by
  induction n generalizing s with
  | zero => rfl
  | succ n ih => rw [afterFetches, ih, fetch8_fatal]

@[simp] theorem fetch8_host (s : State) : (fetch8 s).2.host = s.host := by
  simp [fetch8]

@[simp] theorem afterFetches_host (n : Nat) (s : State) : (afterFetches n s).host = s.host := by
  induction n generalizing s with
  | zero => rfl
  | succ n ih => rw [afterFetches, ih, fetch8_host]

theorem byteAt_fetch8 (s : State) {b : Word} (h : b = 0x6009 → s.pc ≠ 0x6009) :
    byteAt (fetch8 s).2 b = byteAt s b := by
  rw [fetch8, byteAt_setPc, byteAt_afterRead s h]

/-- The second byte of an instruction, whatever the first fetch did. -/
theorem fetch8_second (s : State) : (fetch8 (fetch8 s).2).1 = byteAt s (s.pc + 1) := by
  rw [fetch8_fst, fetch8_pc, byteAt_fetch8]
  intro h e
  rw [e] at h
  exact absurd h (by decide)

/-- The third byte of an instruction, whatever the first two fetches did. -/
theorem fetch8_third (s : State) : (fetch8 (fetch8 (fetch8 s).2).2).1 = byteAt s (s.pc + 2) := by
  have e2 : s.pc + 1 + 1 = s.pc + 2 := by rw [add_assoc]; rfl
  rw [fetch8_second, fetch8_pc, e2, byteAt_fetch8]
  intro h e
  rw [e] at h
  exact absurd h (by decide)

/-- Fetching is decoding the bytes at `PC` (R101, R102). -/
theorem fetchInstr_of_decode {s : State} {i : Instr} {rest : List Byte}
    (h : decodeWith s.config.absentOpcodes [byteAt s s.pc, byteAt s (s.pc + 1), byteAt s (s.pc + 2)] = .ok (i, rest)) :
    ∃ n, n + rest.length = 3 ∧ fetchInstr s = (.instr i, afterFetches n s) := by
  simp only [decodeWith] at h
  have h2 := fetch8_second s
  have h3 := fetch8_third s
  simp only [fetch8_fst] at h2 h3
  unfold fetchInstr
  simp only [fetch8_fst]
  cases hd : decodeOpcode s.config.absentOpcodes (byteAt s s.pc) with
  | none => simp [hd] at h
  | some f =>
    cases f <;> simp only [hd] at h ⊢ <;> simp only [Except.ok.injEq, Prod.mk.injEq] at h <;> obtain ⟨rfl, rfl⟩ := h
    · exact ⟨1, rfl, rfl⟩
    · exact ⟨2, rfl, by rw [h2]; rfl⟩
    · refine ⟨3, rfl, ?_⟩
      simp only [fetch16, fetch8_fst, h2, h3, mkWord]
      rfl

/-- The other case: an unknown opcode byte at `PC` (R121). -/
theorem fetchInstr_of_unknown {s : State} (h : decodeOpcode s.config.absentOpcodes (byteAt s s.pc) = none) :
    fetchInstr s = (.unknown (byteAt s s.pc), (fetch8 s).2) := by
  unfold fetchInstr
  simp only [fetch8_fst, h]

/-! ### Operand access -/

/-- An effective address depends on X, Y, RAM and the parameters alone: the zero-page pointers lie in RAM
(R116, R117). -/
theorem effAddr_congr {s t : State} (m : MemOperand) (hx : t.x = s.x) (hy : t.y = s.y) (hram : t.ram = s.ram)
    (hconfig : t.config = s.config) : effAddr m t = effAddr m s := by
  have hz : ∀ b : Byte, region (zext16 b) = .ram := by decide
  have hh : ∀ w : Bool, ∀ b : Byte, region (zpPointerHigh w b) = .ram := by decide
  have hp : ∀ b, zpPointer t b = zpPointer s b := by
    intro b
    simp only [zpPointer, byteAt_ram (hz b), byteAt_ram (hh _ b), hram, hconfig]
  cases m <;> simp only [effAddr, hx, hy, hp]

/-- The reads of a zero-page pointer have no effect, as `zpPointer` takes them to (R85). -/
theorem afterRead_zpPointer (w : Bool) (b : Byte) (s : State) :
    afterRead (zext16 b) s = s ∧ afterRead (zpPointerHigh w b) s = s := by
  have hz : ∀ b : Byte, region (zext16 b) = .ram := by decide
  have hh : ∀ w : Bool, ∀ b : Byte, region (zpPointerHigh w b) = .ram := by decide
  constructor
  · simp only [afterRead, hz]
  · simp only [afterRead, hh]

/-- Everything an operand read can do: no effect for an immediate, the read's for a byte of memory. -/
theorem loadOperand_cases (m : Source) (s : State) :
    (∃ v, m = .imm v ∧ loadOperand m s = (v, s)) ∨
      ∃ o, m = .mem o ∧ loadOperand m s = (byteAt s (effAddr o s), afterRead (effAddr o s) s) := by
  cases m with
  | imm v => exact .inl ⟨v, rfl, rfl⟩
  | mem o => exact .inr ⟨o, rfl, rfl⟩

@[simp] theorem loadOperand_config (m : Source) (s : State) : (loadOperand m s).2.config = s.config := by
  rcases loadOperand_cases m s with ⟨_, _, h⟩ | ⟨_, _, h⟩ <;> rw [h]
  exact afterRead_config _ s

@[simp] theorem loadOperand_a (m : Source) (s : State) : (loadOperand m s).2.a = s.a := by
  rcases loadOperand_cases m s with ⟨_, _, h⟩ | ⟨_, _, h⟩ <;> rw [h]
  exact afterRead_a _ s

@[simp] theorem loadOperand_x (m : Source) (s : State) : (loadOperand m s).2.x = s.x := by
  rcases loadOperand_cases m s with ⟨_, _, h⟩ | ⟨_, _, h⟩ <;> rw [h]
  exact afterRead_x _ s

@[simp] theorem loadOperand_y (m : Source) (s : State) : (loadOperand m s).2.y = s.y := by
  rcases loadOperand_cases m s with ⟨_, _, h⟩ | ⟨_, _, h⟩ <;> rw [h]
  exact afterRead_y _ s

@[simp] theorem loadOperand_sp (m : Source) (s : State) : (loadOperand m s).2.sp = s.sp := by
  rcases loadOperand_cases m s with ⟨_, _, h⟩ | ⟨_, _, h⟩ <;> rw [h]
  exact afterRead_sp _ s

@[simp] theorem loadOperand_pc (m : Source) (s : State) : (loadOperand m s).2.pc = s.pc := by
  rcases loadOperand_cases m s with ⟨_, _, h⟩ | ⟨_, _, h⟩ <;> rw [h]
  exact afterRead_pc _ s

@[simp] theorem loadOperand_p (m : Source) (s : State) : (loadOperand m s).2.p = s.p := by
  rcases loadOperand_cases m s with ⟨_, _, h⟩ | ⟨_, _, h⟩ <;> rw [h]
  exact afterRead_p _ s

@[simp] theorem loadOperand_bank (m : Source) (s : State) : (loadOperand m s).2.bank = s.bank := by
  rcases loadOperand_cases m s with ⟨_, _, h⟩ | ⟨_, _, h⟩ <;> rw [h]
  exact afterRead_bank _ s

@[simp] theorem loadOperand_ram (m : Source) (s : State) : (loadOperand m s).2.ram = s.ram := by
  rcases loadOperand_cases m s with ⟨_, _, h⟩ | ⟨_, _, h⟩ <;> rw [h]
  exact afterRead_ram _ s

@[simp] theorem loadOperand_rom (m : Source) (s : State) : (loadOperand m s).2.rom = s.rom := by
  rcases loadOperand_cases m s with ⟨_, _, h⟩ | ⟨_, _, h⟩ <;> rw [h]
  exact afterRead_rom _ s

@[simp] theorem loadOperand_cart (m : Source) (s : State) : (loadOperand m s).2.cart = s.cart := by
  rcases loadOperand_cases m s with ⟨_, _, h⟩ | ⟨_, _, h⟩ <;> rw [h]
  exact afterRead_cart _ s

@[simp] theorem loadOperand_dirty (m : Source) (s : State) : (loadOperand m s).2.dirty = s.dirty := by
  rcases loadOperand_cases m s with ⟨_, _, h⟩ | ⟨_, _, h⟩ <;> rw [h]
  exact afterRead_dirty _ s

@[simp] theorem loadOperand_fatal (m : Source) (s : State) : (loadOperand m s).2.fatal = s.fatal := by
  rcases loadOperand_cases m s with ⟨_, _, h⟩ | ⟨_, _, h⟩ <;> rw [h]
  exact afterRead_fatal _ s

@[simp] theorem loadOperand_host (m : Source) (s : State) : (loadOperand m s).2.host = s.host := by
  rcases loadOperand_cases m s with ⟨_, _, h⟩ | ⟨_, _, h⟩ <;> rw [h]
  exact afterRead_host _ s

@[simp] theorem modifyMem_config (m : MemOperand) (f : Byte → Byte → Byte × Byte) (s : State) :
    (modifyMem m f s).config = s.config := by
  simp [modifyMem, readByte]

@[simp] theorem modifyMem_a (m : MemOperand) (f : Byte → Byte → Byte × Byte) (s : State) :
    (modifyMem m f s).a = s.a := by
  simp [modifyMem, readByte]

@[simp] theorem modifyMem_x (m : MemOperand) (f : Byte → Byte → Byte × Byte) (s : State) :
    (modifyMem m f s).x = s.x := by
  simp [modifyMem, readByte]

@[simp] theorem modifyMem_y (m : MemOperand) (f : Byte → Byte → Byte × Byte) (s : State) :
    (modifyMem m f s).y = s.y := by
  simp [modifyMem, readByte]

@[simp] theorem modifyMem_sp (m : MemOperand) (f : Byte → Byte → Byte × Byte) (s : State) :
    (modifyMem m f s).sp = s.sp := by
  simp [modifyMem, readByte]

@[simp] theorem modifyMem_pc (m : MemOperand) (f : Byte → Byte → Byte × Byte) (s : State) :
    (modifyMem m f s).pc = s.pc := by
  simp [modifyMem, readByte]

@[simp] theorem modifyMem_rom (m : MemOperand) (f : Byte → Byte → Byte × Byte) (s : State) :
    (modifyMem m f s).rom = s.rom := by
  simp [modifyMem, readByte]

@[simp] theorem modifyMem_cart (m : MemOperand) (f : Byte → Byte → Byte × Byte) (s : State) :
    (modifyMem m f s).cart = s.cart := by
  simp [modifyMem, readByte]

@[simp] theorem modifyMem_host (m : MemOperand) (f : Byte → Byte → Byte × Byte) (s : State) :
    (modifyMem m f s).host = s.host := by
  simp [modifyMem, readByte]

/-- A read-modify-write is one write at the effective address, whatever else (R119). -/
theorem modifyMem_eq (m : MemOperand) (f : Byte → Byte → Byte × Byte) (s : State) :
    modifyMem m f s = writeByte (effAddr m s) (f (byteAt s (effAddr m s)) s.p).1
      ((afterRead (effAddr m s) s).setP (f (byteAt s (effAddr m s)) s.p).2) := by
  simp [modifyMem, readByte]

end Sys2Proof.Machine
end

