-- ==== Sys2Proof/Laws/Invariant.lean ====
section
/-! SUPPORT. Every operation keeps the canonical form of the byte stores and their address ranges. -/

namespace Sys2Proof.Machine

/-- The invariant is about the three stores alone. -/
theorem State.wf_congr {s t : State} (h : s.wf) (hram : t.ram = s.ram) (hrom : t.rom = s.rom) (hcart : t.cart = s.cart) :
    t.wf := by
  unfold State.wf
  rw [hram, hrom, hcart]
  exact h

/-- The invariant after a change of RAM alone. -/
theorem State.wf_of_ram {s t : State} (h : s.wf) (hram : t.ram.wf) (hin : t.ram.within ramAddress)
    (hrom : t.rom = s.rom) (hcart : t.cart = s.cart) : t.wf := by
  unfold State.wf
  rw [hrom, hcart]
  exact ⟨hram, h.2.1, h.2.2.1, hin, h.2.2.2.2⟩

theorem ramAddress_of_region {a : Word} (h : region a = .ram) : ramAddress a.toNat = true := by
  rw [region_eq_ram] at h
  unfold ramAddressBelow at h
  simp only [ramAddress, Bool.or_eq_true, Bool.and_eq_true, decide_eq_true_eq]
  omega

theorem writeByte_wf (a : Word) (v : Byte) {s : State} (h : s.wf) : (writeByte a v s).wf := by
  refine State.wf_of_ram h ?_ ?_ (writeByte_rom a v s) (writeByte_cart a v s)
  · rw [writeByte_ram]
    split
    · exact Memory.wf_write _ _ h.1
    · exact h.1
  · rw [writeByte_ram]
    split
    · exact Memory.within_write v (ramAddress_of_region ‹_›) h.2.2.2.1
    · exact h.2.2.2.1

theorem writeWord_wf (a w : Word) {s : State} (h : s.wf) : (writeWord a w s).wf := by
  unfold writeWord
  simp only
  split
  · exact writeByte_wf _ _ h
  · exact writeByte_wf _ _ (writeByte_wf _ _ h)

theorem push8_wf (v : Byte) {s : State} (h : s.wf) : (push8 v s).wf :=
  writeByte_wf _ v (State.wf_congr h rfl rfl rfl)

theorem push16_wf (w : Word) {s : State} (h : s.wf) : (push16 w s).wf := push8_wf _ (push8_wf _ h)

theorem afterRead_wf (a : Word) {s : State} (h : s.wf) : (afterRead a s).wf :=
  State.wf_congr h (afterRead_ram a s) (afterRead_rom a s) (afterRead_cart a s)

theorem loadOperand_wf (m : Source) {s : State} (h : s.wf) : (loadOperand m s).2.wf :=
  State.wf_congr h (loadOperand_ram m s) (loadOperand_rom m s) (loadOperand_cart m s)

theorem modifyMem_wf (m : MemOperand) (f : Byte → Byte → Byte × Byte) {s : State} (h : s.wf) :
    (modifyMem m f s).wf := by
  rw [modifyMem_eq]
  exact writeByte_wf _ _ (State.wf_congr (afterRead_wf _ h) rfl rfl rfl)

theorem takeException_wf (ret vector : Word) (set : Byte) {s : State} (h : s.wf) :
    (takeException ret vector set s).wf := by
  refine State.wf_congr (s := pushP (push16 ret s)) (push8_wf _ (push16_wf _ h)) ?_ ?_ ?_ <;>
    simp [takeException, readWord, readPair]

theorem afterFetches_wf (n : Nat) {s : State} (h : s.wf) : (afterFetches n s).wf :=
  State.wf_congr h (afterFetches_ram n s) (afterFetches_rom n s) (afterFetches_cart n s)

/-- Placing an instruction keeps the invariant too. -/
theorem placeByte_wf (a : Word) (v : Byte) {s : State} (h : s.wf) : (placeByte a v s).wf := by
  unfold placeByte
  split
  · have ha := a.isLt
    exact ⟨h.1, Memory.wf_write _ _ h.2.1, h.2.2.1, h.2.2.2.1,
      Memory.within_write v (by simp only [decide_eq_true_eq]; omega) h.2.2.2.2.1, h.2.2.2.2.2⟩
  · exact h
  · exact State.wf_of_ram h (Memory.wf_write _ _ h.1)
      (Memory.within_write v (ramAddress_of_region ‹_›) h.2.2.2.1) rfl rfl

/-- The memory right after reset is in canonical form. -/
theorem reset_ram_wf : State.reset.ram.wf ∧ State.reset.rom.wf ∧ State.reset.cart.wf := by decide

end Sys2Proof.Machine
end

