-- ==== Sys2Proof/Laws/Exec.lean ====
section
/-! SUPPORT. What any instruction can do to the machine outside the CPU registers, said once: one byte write at its
effective address, or writes to its stack slots, or no write at all. -/

namespace Sys2Proof.Machine

/-- `t` is `s` up to the CPU registers, at most `n` draws and at most `n` diagnostics: no write, only reads. -/
structure ReadsOnly (n : Nat) (s t : State) : Prop where
  config : t.config = s.config
  ram : t.ram = s.ram
  rom : t.rom = s.rom
  cart : t.cart = s.cart
  bank : t.bank = s.bank
  dirty : t.dirty = s.dirty
  fatal : t.fatal = s.fatal
  host : t.host = s.host
  draws : t.draws = s.draws ∨ t.draws = s.draws + 1
  diag : ∃ l, t.diag = l ++ s.diag ∧ l.length ≤ n

theorem ReadsOnly.refl (n : Nat) (s : State) : ReadsOnly n s s :=
  ⟨rfl, rfl, rfl, rfl, rfl, rfl, rfl, rfl, .inl rfl, [], rfl, Nat.zero_le n⟩

/-- Only the CPU registers may differ between `u` and `t`. -/
theorem ReadsOnly.congr {n : Nat} {s t u : State} (h : ReadsOnly n s t) (hram : u.ram = t.ram := by rfl)
    (hrom : u.rom = t.rom := by rfl) (hcart : u.cart = t.cart := by rfl) (hbank : u.bank = t.bank := by rfl)
    (hdirty : u.dirty = t.dirty := by rfl) (hfatal : u.fatal = t.fatal := by rfl) (hhost : u.host = t.host := by rfl)
    (hdraws : u.draws = t.draws := by rfl) (hdiag : u.diag = t.diag := by rfl)
    (hconfig : u.config = t.config := by rfl) : ReadsOnly n s u :=
  ⟨hconfig.trans h.config, hram.trans h.ram, hrom.trans h.rom, hcart.trans h.cart, hbank.trans h.bank,
    hdirty.trans h.dirty, hfatal.trans h.fatal, hhost.trans h.host, hdraws ▸ h.draws, hdiag ▸ h.diag⟩

theorem ReadsOnly.mono {m n : Nat} {s t : State} (h : ReadsOnly m s t) (hm : m ≤ n) : ReadsOnly n s t :=
  ⟨h.config, h.ram, h.rom, h.cart, h.bank, h.dirty, h.fatal, h.host, h.draws,
    h.diag.imp fun _ hl => ⟨hl.1, Nat.le_trans hl.2 hm⟩⟩

/-- One read. -/
theorem readsOnly_afterRead (a : Word) (s : State) : ReadsOnly 1 s (afterRead a s) := by
  refine ⟨by simp, by simp, by simp, by simp, by simp, by simp, by simp, by simp, ?_, ?_⟩
  · rcases afterRead_cases a s with h | ⟨_, h⟩ | ⟨_, _, h⟩ <;> rw [h]
    · exact .inl rfl
    · exact .inr rfl
    · exact .inl rfl
  · rcases afterRead_cases a s with h | ⟨_, h⟩ | ⟨_, _, h⟩ <;> rw [h]
    · exact ⟨[], rfl, by decide⟩
    · exact ⟨[], rfl, by decide⟩
    · exact ⟨[_], rfl, Nat.le_refl 1⟩

theorem readsOnly_loadOperand (m : Source) (s : State) : ReadsOnly 1 s (loadOperand m s).2 := by
  cases m with
  | imm v => exact ReadsOnly.refl 1 s
  | mem o => exact readsOnly_afterRead _ s

/-- A read that is not of slot 9 draws nothing. -/
theorem afterRead_draws {a : Word} (s : State) (h : a ≠ 0x6009) : (afterRead a s).draws = s.draws := by
  rcases afterRead_cases a s with h' | ⟨ha, _⟩ | ⟨_, _, h'⟩
  · rw [h']
  · exact absurd ha h
  · rw [h']
    rfl

/-- The two bytes of a JMP pointer are at two addresses, with or without the page bug (R115). -/
theorem jmpPointerHigh_ne (bug : Bool) (ptr : Word) : jmpPointerHigh bug ptr ≠ ptr := by
  intro h
  cases bug with
  | false =>
    simp only [jmpPointerHigh, Bool.false_eq_true, if_false] at h
    bv_omega
  | true =>
    have h' := congrArg loByte h
    simp only [jmpPointerHigh, if_true, loByte_mkWord] at h'
    bv_omega

/-- The two reads of JMP IND: only one of the two bytes can be the random source. -/
theorem readsOnly_readJmpPointer (ptr : Word) (s : State) : ReadsOnly 2 s (readJmpPointer ptr s).2 := by
  have h1 := readsOnly_afterRead ptr s
  have h2 := readsOnly_afterRead (jmpPointerHigh s.config.jmpIndPageBug ptr) (afterRead ptr s)
  show ReadsOnly 2 s (afterRead (jmpPointerHigh s.config.jmpIndPageBug ptr) (afterRead ptr s))
  refine ⟨h2.config.trans h1.config, h2.ram.trans h1.ram, h2.rom.trans h1.rom, h2.cart.trans h1.cart, h2.bank.trans h1.bank,
    h2.dirty.trans h1.dirty, h2.fatal.trans h1.fatal, h2.host.trans h1.host, ?_, ?_⟩
  · by_cases h : ptr = 0x6009
    · rw [afterRead_draws _ (h ▸ jmpPointerHigh_ne s.config.jmpIndPageBug ptr)]
      exact h1.draws
    · have := h2.draws
      rwa [afterRead_draws s h] at this
  · obtain ⟨l1, e1, n1⟩ := h1.diag
    obtain ⟨l2, e2, n2⟩ := h2.diag
    exact ⟨l2 ++ l1, by rw [e2, e1, List.append_assoc], by rw [List.length_append]; omega⟩

/-- A list of byte writes to RAM, first to last. -/
def writeAll : Memory → List (Word × Byte) → Memory
  | m, [] => m
  | m, (a, v) :: rest => writeAll (m.write a.toNat v) rest

theorem read_writeAll_ne (m : Memory) (w : List (Word × Byte)) {n : Nat} (h : ∀ c ∈ w, c.1.toNat ≠ n) :
    (writeAll m w).read n = m.read n := by
  induction w generalizing m with
  | nil => rfl
  | cons c w ih =>
    rw [writeAll, ih _ fun d hd => h d (List.mem_cons_of_mem _ hd)]
    exact Memory.read_write_ne _ _ (h c List.mem_cons_self).symm

theorem wf_writeAll {m : Memory} (w : List (Word × Byte)) (h : m.wf) : (writeAll m w).wf := by
  induction w generalizing m with
  | nil => exact h
  | cons c w ih => exact ih (Memory.wf_write _ _ h)

theorem within_writeAll {p : Nat → Bool} {m : Memory} (w : List (Word × Byte)) (hw : ∀ c ∈ w, p c.1.toNat = true)
    (h : m.within p) : (writeAll m w).within p := by
  induction w generalizing m with
  | nil => exact h
  | cons c w ih =>
    exact ih (fun d hd => hw d (List.mem_cons_of_mem _ hd))
      (Memory.within_write _ (hw c List.mem_cons_self) h)

/-- `t` is `s` after the stack writes `w`, up to the CPU registers and reads. -/
structure StackWrites (w : List (Word × Byte)) (s t : State) : Prop where
  ram : t.ram = writeAll s.ram w
  rest : ReadsOnly 2 s (t.setRam s.ram)

theorem StackWrites.of_readsOnly {s t : State} (h : ReadsOnly 2 s t) : StackWrites [] s t :=
  ⟨h.ram, ⟨h.config, rfl, h.rom, h.cart, h.bank, h.dirty, h.fatal, h.host, h.draws, h.diag⟩⟩

theorem ReadsOnly.of_eq {n : Nat} {s t : State} (hram : t.ram = s.ram) (hrom : t.rom = s.rom) (hcart : t.cart = s.cart)
    (hbank : t.bank = s.bank) (hdirty : t.dirty = s.dirty) (hfatal : t.fatal = s.fatal) (hhost : t.host = s.host)
    (hdraws : t.draws = s.draws) (hdiag : t.diag = s.diag) (hconfig : t.config = s.config) : ReadsOnly n s t :=
  ⟨hconfig, hram, hrom, hcart, hbank, hdirty, hfatal, hhost, .inl hdraws, [], hdiag, Nat.zero_le n⟩

/-- What any instruction does outside the CPU registers (R92, R119, R258): its one data write, after at most one
read, or its stack writes, or reads alone. -/
def ExecEffect (i : Instr) (s t : State) : Prop :=
  match dataStore i s with
  | some a => stackStores i s = [] ∧ ∃ v u, ReadsOnly 1 s u ∧ u.pc = s.pc ∧ t = writeByte a v u
  | none => ∃ vs : List Byte, vs.length = (stackStores i s).length ∧ StackWrites ((stackStores i s).zip vs) s t

/-- The stack slots are addresses of the stack page. -/
theorem region_stackStores {i : Instr} {s : State} {a : Word} (h : a ∈ stackStores i s) : region a = .ram := by
  cases i <;> simp only [stackStores, List.mem_cons, List.not_mem_nil, or_false] at h
  case brk =>
    split at h
    · cases h
    · simp only [List.mem_cons, List.not_mem_nil, or_false] at h
      rcases h with rfl | rfl | rfl <;> exact region_stackAddr _
  case jsr => rcases h with rfl | rfl <;> exact region_stackAddr _
  all_goals (subst h; exact region_stackAddr _)

theorem modifyMem_effect (m : MemOperand) (f : Byte → Byte → Byte × Byte) (s : State) :
    ∃ v u, ReadsOnly 1 s u ∧ u.pc = s.pc ∧ modifyMem m f s = writeByte (effAddr m s) v u :=
  ⟨_, (afterRead (effAddr m s) s).setP (f (byteAt s (effAddr m s)) s.p).2,
    (readsOnly_afterRead (effAddr m s) s).congr, afterRead_pc _ _, modifyMem_eq m f s⟩

/-- The slot a push writes (R170). -/
theorem push8_ram (v : Byte) (s : State) :
    (push8 v s).ram = s.ram.write (stackAddr (pushSlot s.config.stackDiscipline s.sp)).toNat v := by
  rw [push8_eq]
  rfl

theorem pushAddr_zero (s : State) : pushAddr s 0 = stackAddr (pushSlot s.config.stackDiscipline s.sp) := by
  simp [pushAddr]

theorem pushAddr_one (s : State) : pushAddr s 1 = stackAddr (pushSlot s.config.stackDiscipline (s.sp - 1)) := by
  simp [pushAddr]

theorem pushAddr_two (s : State) : pushAddr s 2 = stackAddr (pushSlot s.config.stackDiscipline (s.sp - 1 - 1)) := by
  have h : s.sp - BitVec.ofNat 8 2 = s.sp - 1 - 1 := by bv_omega
  rw [pushAddr, h]

theorem readsOnly_lda (m : Source) (s : State) : ReadsOnly 2 s (Machine.lda m s) :=
  ((readsOnly_loadOperand m s).mono (by decide)).congr

theorem readsOnly_ldx (m : Source) (s : State) : ReadsOnly 2 s (Machine.ldx m s) :=
  ((readsOnly_loadOperand m s).mono (by decide)).congr

theorem readsOnly_ldy (m : Source) (s : State) : ReadsOnly 2 s (Machine.ldy m s) :=
  ((readsOnly_loadOperand m s).mono (by decide)).congr

theorem readsOnly_andA (m : Source) (s : State) : ReadsOnly 2 s (Machine.andA m s) :=
  ((readsOnly_loadOperand m s).mono (by decide)).congr

theorem readsOnly_oraA (m : Source) (s : State) : ReadsOnly 2 s (Machine.oraA m s) :=
  ((readsOnly_loadOperand m s).mono (by decide)).congr

theorem readsOnly_eorA (m : Source) (s : State) : ReadsOnly 2 s (Machine.eorA m s) :=
  ((readsOnly_loadOperand m s).mono (by decide)).congr

theorem readsOnly_adc (m : Source) (s : State) : ReadsOnly 2 s (Machine.adc m s) :=
  ((readsOnly_loadOperand m s).mono (by decide)).congr

theorem readsOnly_sbc (m : Source) (s : State) : ReadsOnly 2 s (Machine.sbc m s) :=
  ((readsOnly_loadOperand m s).mono (by decide)).congr

theorem readsOnly_cmp (m : Source) (s : State) : ReadsOnly 2 s (Machine.cmp m s) :=
  ((readsOnly_loadOperand m s).mono (by decide)).congr

theorem readsOnly_cpx (m : Source) (s : State) : ReadsOnly 2 s (Machine.cpx m s) :=
  ((readsOnly_loadOperand m s).mono (by decide)).congr

theorem readsOnly_cpy (m : Source) (s : State) : ReadsOnly 2 s (Machine.cpy m s) :=
  ((readsOnly_loadOperand m s).mono (by decide)).congr

theorem readsOnly_bitTest (m : MemOperand) (s : State) : ReadsOnly 2 s (bitTest m s) :=
  ((readsOnly_loadOperand (.mem m) s).mono (by decide)).congr

/-- Every instruction completes, and this is all it does outside the CPU registers. -/
theorem exec_effect (i : Instr) (s : State) : ∃ t, exec i s = .next t ∧ ExecEffect i s t := by
  cases i
  case pha =>
    refine ⟨_, rfl, [s.a], rfl, ?_, ?_⟩
    · simp only [stackStores, List.zip_cons_cons, List.zip_nil_right, writeAll, pushAddr_zero, push8_ram]
    · exact ReadsOnly.of_eq rfl (by simp) (by simp) (by simp) (by simp) (by simp) (by simp) (by simp) (by simp) (by simp)
  case php =>
    refine ⟨_, rfl, [forcedOnPush s.config.forceMask s.p], rfl, ?_, ?_⟩
    · simp only [stackStores, List.zip_cons_cons, List.zip_nil_right, writeAll, pushAddr_zero, pushP, push8_ram]
    · exact ReadsOnly.of_eq rfl (by simp [pushP]) (by simp [pushP]) (by simp [pushP]) (by simp [pushP])
        (by simp [pushP]) (by simp [pushP]) (by simp [pushP]) (by simp [pushP]) (by simp [pushP])
  case jsr addr =>
    refine ⟨_, rfl, [hiByte (s.pc - 1), loByte (s.pc - 1)], rfl, ?_, ?_⟩
    · simp only [stackStores, List.zip_cons_cons, List.zip_nil_right, writeAll, pushAddr_zero, pushAddr_one, push16,
        push8_ram, push8_sp, push8_config, State.setPc_ram]
    · exact ReadsOnly.of_eq rfl (by simp [push16]) (by simp [push16]) (by simp [push16]) (by simp [push16])
        (by simp [push16]) (by simp [push16]) (by simp [push16]) (by simp [push16]) (by simp [push16])
  case brk =>
    by_cases h : flag .I s.p = true
    · refine ⟨s, by simp [exec, execBrk, h], [], by simp [stackStores, h], ?_⟩
      simp only [stackStores, h, if_true, List.zip_nil_right]
      exact .of_readsOnly (ReadsOnly.refl 2 s)
    · refine ⟨takeException (s.pc + 1) irqVector (flagMask .I ||| flagMask .B) s, by simp [exec, execBrk, h],
        [hiByte (s.pc + 1), loByte (s.pc + 1), forcedOnPush s.config.forceMask s.p], by simp [stackStores, h], ?_⟩
      rw [takeException_eq _ _ _ (by decide) (by decide)]
      refine ⟨?_, ?_⟩
      · simp only [stackStores, h, pushAddr_zero, pushAddr_one, pushAddr_two, pushP, push16, push8_ram, push8_sp, push8_p,
          push8_config, State.setPc_ram, State.setP_ram]
        rfl
      · exact ReadsOnly.of_eq rfl (by simp [pushP, push16]) (by simp [pushP, push16]) (by simp [pushP, push16])
          (by simp [pushP, push16]) (by simp [pushP, push16]) (by simp [pushP, push16]) (by simp [pushP, push16])
          (by simp [pushP, push16]) (by simp [pushP, push16])
  case jmpInd ptr => exact ⟨_, rfl, [], rfl, .of_readsOnly (readsOnly_readJmpPointer ptr s).congr⟩
  case staZp | staZpx | staAbs | staAbx | staAby | staIzx | staIzy | stxZp | stxZpy | stxAbs | styZp | styZpx | styAbs =>
    exact ⟨_, rfl, rfl, _, s, ReadsOnly.refl 1 s, rfl, rfl⟩
  case incZp | incZpx | incAbs | incAbx | decZp | decZpx | decAbs | decAbx | aslZp | aslZpx | aslAbs | aslAbx | lsrZp |
      lsrZpx | lsrAbs | lsrAbx | rolZp | rolZpx | rolAbs | rolAbx | rorZp | rorZpx | rorAbs | rorAbx =>
    exact ⟨_, rfl, rfl, modifyMem_effect _ _ s⟩
  case bpl | bmi | bvc | bvs | bcc | bcs | bne | beq =>
    refine ⟨_, rfl, [], rfl, .of_readsOnly ?_⟩
    unfold branch
    split
    · exact (ReadsOnly.refl 2 s).congr
    · exact ReadsOnly.refl 2 s
  case tax | tay | txa | tya | tsx | txs | inx | iny | dex | dey | pla | plp | aslAcc | lsrAcc | rolAcc | rorAcc | jmpAbs |
      rts | clc | sec | cli | sei | clv | cld | sed | rti | nop =>
    exact ⟨_, rfl, [], rfl, .of_readsOnly (ReadsOnly.refl 2 s).congr⟩
  case ldaImm | ldaZp | ldaZpx | ldaAbs | ldaAbx | ldaAby | ldaIzx | ldaIzy =>
    exact ⟨_, rfl, [], rfl, .of_readsOnly (readsOnly_lda _ s)⟩
  case ldxImm | ldxZp | ldxZpy | ldxAbs | ldxAby =>
    exact ⟨_, rfl, [], rfl, .of_readsOnly (readsOnly_ldx _ s)⟩
  case ldyImm | ldyZp | ldyZpx | ldyAbs | ldyAbx =>
    exact ⟨_, rfl, [], rfl, .of_readsOnly (readsOnly_ldy _ s)⟩
  case andImm | andZp | andZpx | andAbs | andAbx | andAby | andIzx | andIzy =>
    exact ⟨_, rfl, [], rfl, .of_readsOnly (readsOnly_andA _ s)⟩
  case oraImm | oraZp | oraZpx | oraAbs | oraAbx | oraAby | oraIzx | oraIzy =>
    exact ⟨_, rfl, [], rfl, .of_readsOnly (readsOnly_oraA _ s)⟩
  case eorImm | eorZp | eorZpx | eorAbs | eorAbx | eorAby | eorIzx | eorIzy =>
    exact ⟨_, rfl, [], rfl, .of_readsOnly (readsOnly_eorA _ s)⟩
  case adcImm | adcZp | adcZpx | adcAbs | adcAbx | adcAby | adcIzx | adcIzy =>
    exact ⟨_, rfl, [], rfl, .of_readsOnly (readsOnly_adc _ s)⟩
  case sbcImm | sbcZp | sbcZpx | sbcAbs | sbcAbx | sbcAby | sbcIzx | sbcIzy =>
    exact ⟨_, rfl, [], rfl, .of_readsOnly (readsOnly_sbc _ s)⟩
  case cmpImm | cmpZp | cmpZpx | cmpAbs | cmpAbx | cmpAby | cmpIzx | cmpIzy =>
    exact ⟨_, rfl, [], rfl, .of_readsOnly (readsOnly_cmp _ s)⟩
  case cpxImm | cpxZp | cpxAbs =>
    exact ⟨_, rfl, [], rfl, .of_readsOnly (readsOnly_cpx _ s)⟩
  case cpyImm | cpyZp | cpyAbs =>
    exact ⟨_, rfl, [], rfl, .of_readsOnly (readsOnly_cpy _ s)⟩
  case bitZp | bitAbs =>
    exact ⟨_, rfl, [], rfl, .of_readsOnly (readsOnly_bitTest _ s)⟩

end Sys2Proof.Machine
end

