-- ==== Sys2Proof/Laws/Host.lean ====
section
/-! SUPPORT. The host's sequence of actions (spec/60_exceptions.md R270): what taking an action does to a state, what a
step can be, and that a run follows the sequence, its listed actions first and then the infinite rest. -/

namespace Sys2Proof.Machine

/-! ### The next action, and the state without it -/

theorem HostScript.next_soon (a : HostAction) (l : List HostAction) (r : HostLater) :
    (HostScript.mk (a :: l) r).next = a := rfl

theorem HostScript.rest_soon (a : HostAction) (l : List HostAction) (r : HostLater) :
    (HostScript.mk (a :: l) r).rest = ⟨l, r⟩ := rfl

theorem HostScript.next_ticks : (HostScript.mk [] .ticks).next = .tick := rfl

theorem HostScript.rest_ticks : (HostScript.mk [] .ticks).rest = ⟨[], .ticks⟩ := rfl

theorem HostScript.next_free (n : Nat) : (HostScript.mk [] (.free n)).next = Config.hostAction n := rfl

theorem HostScript.rest_free (n : Nat) : (HostScript.mk [] (.free n)).rest = ⟨[], .free (n + 1)⟩ := rfl

namespace State
variable (s : State)

@[simp] theorem takeAction_config : s.takeAction.config = s.config := rfl
@[simp] theorem takeAction_a : s.takeAction.a = s.a := rfl
@[simp] theorem takeAction_x : s.takeAction.x = s.x := rfl
@[simp] theorem takeAction_y : s.takeAction.y = s.y := rfl
@[simp] theorem takeAction_sp : s.takeAction.sp = s.sp := rfl
@[simp] theorem takeAction_pc : s.takeAction.pc = s.pc := rfl
@[simp] theorem takeAction_p : s.takeAction.p = s.p := rfl
@[simp] theorem takeAction_bank : s.takeAction.bank = s.bank := rfl
@[simp] theorem takeAction_ram : s.takeAction.ram = s.ram := rfl
@[simp] theorem takeAction_rom : s.takeAction.rom = s.rom := rfl
@[simp] theorem takeAction_cart : s.takeAction.cart = s.cart := rfl
@[simp] theorem takeAction_dirty : s.takeAction.dirty = s.dirty := rfl
@[simp] theorem takeAction_fatal : s.takeAction.fatal = s.fatal := rfl
@[simp] theorem takeAction_draws : s.takeAction.draws = s.draws := rfl
@[simp] theorem takeAction_diag : s.takeAction.diag = s.diag := rfl
@[simp] theorem takeAction_host : s.takeAction.host = s.host.rest := rfl

end State

@[simp] theorem byteAt_takeAction (s : State) (a : Word) : byteAt s.takeAction a = byteAt s a := by
  simp [State.takeAction]

@[simp] theorem bytesAtPc_takeAction (s : State) : bytesAtPc s.takeAction = bytesAtPc s := by simp [bytesAtPc]

/-! ### What a step can be -/

theorem step_of_fatal {s : State} (h : s.fatal = true) : step s = .fault .fatalStop := by simp [step, act, h]

theorem step_of_tick {s : State} (hr : s.running) (h : s.nextAction = .tick) : step s = tick s.takeAction := by
  have hr : s.fatal = false := hr
  simp [step, act, h, hr]

theorem step_of_event {s : State} {e : HostEvent} (hr : s.running) (h : s.nextAction = .event e) :
    step s = .next (hostEffect e s.takeAction) := by
  have hr : s.fatal = false := hr
  simp [step, act, h, hr]

/-- A step that answers a next state starts in a running state and is a `tick()` or an event, with its action taken
off the sequence. -/
theorem step_cases {s t : State} (h : step s = .next t) :
    s.running ∧ ((s.nextAction = .tick ∧ tick s.takeAction = .next t) ∨
      ∃ e, s.nextAction = .event e ∧ t = hostEffect e s.takeAction) := by
  cases hf : s.fatal with
  | true =>
    rw [step_of_fatal hf] at h
    cases h
  | false =>
    refine ⟨hf, ?_⟩
    cases ha : s.nextAction with
    | tick => exact .inl ⟨rfl, step_of_tick hf ha ▸ h⟩
    | event e =>
      rw [step_of_event hf ha] at h
      cases h
      exact .inr ⟨e, rfl, rfl⟩

/-- A `tick()` runs the instruction its fetches give, or logs the unknown opcode. -/
theorem tick_cases {s t : State} (h : tick s = .next t) : ∃ n,
    (∃ i, (fetchInstr s).1 = .instr i ∧ exec i (afterFetches n s) = .next t) ∨
      ∃ op, (fetchInstr s).1 = .unknown op ∧ t = unknownOpcode op (afterFetches n s) := by
  have hn : ∃ n, (fetchInstr s).2 = afterFetches n s := by
    unfold fetchInstr
    simp only
    split
    · exact ⟨1, rfl⟩
    · exact ⟨1, rfl⟩
    · exact ⟨2, rfl⟩
    · exact ⟨3, rfl⟩
  obtain ⟨n, hn⟩ := hn
  refine ⟨n, ?_⟩
  unfold tick at h
  rw [hn] at h
  split at h
  · exact .inl ⟨_, ‹_›, h⟩
  · cases h
    exact .inr ⟨_, ‹_›, rfl⟩

/-! ### The sequence is followed -/

theorem exec_host {i : Instr} {s t : State} (h : exec i s = .next t) : t.host = s.host := by
  obtain ⟨t', ht, he⟩ := exec_effect i s
  rw [ht] at h
  cases h
  unfold ExecEffect at he
  split at he
  · obtain ⟨_, v, u, hr, _, rfl⟩ := he
    rw [writeByte_host, hr.host]
  · obtain ⟨_, _, hw⟩ := he
    exact hw.rest.host

theorem takeException_host (ret vector : Word) (set : Byte) (s : State) :
    (takeException ret vector set s).host = s.host := by
  simp [takeException, readWord, readPair_snd, pushP, push16]

theorem hostEffect_host (e : HostEvent) (s : State) : (hostEffect e s).host = s.host := by
  cases e with
  | reset => simp [hostEffect, resetCpu, readWord, readPair_snd]
  | interruptRequest =>
    simp only [hostEffect, interruptRequest]
    split
    · rfl
    · exact takeException_host _ _ _ s
  | nonMaskableInterrupt => exact takeException_host _ _ _ s
  | writeKeyboard | writeMouseX | writeMouseY | writeInterruptId | clearDirty => rfl

/-- A step takes one action off the host's sequence and does nothing else to it. -/
theorem step_host {s t : State} (h : step s = .next t) : t.host = s.host.rest := by
  obtain ⟨-, ⟨-, h⟩ | ⟨e, -, rfl⟩⟩ := step_cases h
  · obtain ⟨n, ⟨i, -, h⟩ | ⟨op, -, rfl⟩⟩ := tick_cases h
    · rw [exec_host h, afterFetches_host, State.takeAction_host]
    · simp [unknownOpcode, logDiag]
  · rw [hostEffect_host, State.takeAction_host]

theorem steps_succ {n : Nat} {s u : State} (h : steps (n + 1) s = .next u) :
    ∃ t, step s = .next t ∧ steps n t = .next u := by
  unfold steps at h
  split at h
  · exact ⟨_, ‹_›, h⟩
  · cases h
  · cases h

/-- A run whose host is left free follows `Config.hostAction`, action by action, for ever: so an infinite sequence with
any number of events is a run of `step` (R270). -/
theorem nextAction_steps_free {n k : Nat} {s t : State} (hs : s.host = ⟨[], .free k⟩) (h : steps n s = .next t) :
    t.host = ⟨[], .free (k + n)⟩ ∧ t.nextAction = Config.hostAction (k + n) := by
  induction n generalizing k s with
  | zero =>
    cases h
    exact ⟨hs, by rw [State.nextAction, hs]; rfl⟩
  | succ n ih =>
    obtain ⟨u, hu, h⟩ := steps_succ h
    have := ih (k := k + 1) (by rw [step_host hu, hs]; rfl) h
    rwa [Nat.add_assoc, Nat.add_comm 1 n] at this

/-- A run takes the listed actions first, one a step, whatever comes after them. -/
theorem host_steps_soon {l m : List HostAction} {r : HostLater} {s t : State} (hs : s.host = ⟨l ++ m, r⟩)
    (h : steps l.length s = .next t) : t.host = ⟨m, r⟩ := by
  induction l generalizing s with
  | nil =>
    cases h
    exact hs
  | cons a l ih =>
    obtain ⟨u, hu, h⟩ := steps_succ h
    exact ih (by rw [step_host hu, hs]; rfl) h

end Sys2Proof.Machine
end

