-- ==== Sys2Proof/Laws/PerInstr.lean ====
section
/-! SUPPORT. Family `Encoding`: for each constructor of Instr, the decoder gives back the instruction whose bytes
the encoder wrote (spec/30_encoding.md R100, R101, R120), for every opcode set that has it (R11). -/

namespace Sys2Proof.Laws.Encoding

/-- Decoding the encoded instruction gives it back and leaves the rest. -/
def Statement (i : Instr) : Prop :=
  ∀ (absent : List Byte) (rest : List Byte), wellFormedIn absent i = true →
    decodeWith absent (encode i ++ rest) = .ok (i, rest)

theorem decodeOpcode_of_wellFormed {absent : List Byte} {i : Instr} {op : Byte} {f : Form}
    (hw : wellFormedIn absent i = true) (ho : opcode i = op) (hg : grid op = some f) :
    decodeOpcode absent op = some f := by
  have : absent.contains op = false := by simpa [wellFormedIn, ho] using hw
  simp only [decodeOpcode, this, Bool.false_eq_true, if_false, hg]

theorem ofImplied {i : Instr} {op : Byte} (he : encode i = encode0 op) (hg : grid op = some (.implied i)) :
    Statement i := by
  intro absent rest hw
  have hd := decodeOpcode_of_wellFormed hw (by rw [opcode, he]; rfl) hg
  simp only [he, encode0, List.cons_append, List.nil_append, decodeWith, hd]

theorem ofByte {i : Instr} {op b : Byte} {f : Byte → Instr} (he : encode i = encode1 op b)
    (hg : grid op = some (.byte f)) (hf : f b = i) : Statement i := by
  intro absent rest hw
  have hd := decodeOpcode_of_wellFormed hw (by rw [opcode, he]; rfl) hg
  simp only [he, encode1, List.cons_append, List.nil_append, decodeWith, hd, hf]

theorem ofWord {i : Instr} {op : Byte} {w : Word} {f : Word → Instr} (he : encode i = encode2 op w)
    (hg : grid op = some (.word f)) (hf : f w = i) : Statement i := by
  intro absent rest hw
  have hd := decodeOpcode_of_wellFormed hw (by rw [opcode, he]; rfl) hg
  have hword : (w >>> 8).setWidth 8 ++ w.setWidth 8 = w := Machine.mkWord_hiByte_loByte w
  simp only [he, encode2, List.cons_append, List.nil_append, decodeWith, hd, hword, hf]

theorem ldaImm (v : Byte) : Statement (.ldaImm v) := ofByte (op := 0xA9) rfl rfl rfl

theorem ldaZp (zp : Byte) : Statement (.ldaZp zp) := ofByte (op := 0xA5) rfl rfl rfl

theorem ldaZpx (zp : Byte) : Statement (.ldaZpx zp) := ofByte (op := 0xB5) rfl rfl rfl

theorem ldaAbs (addr : Word) : Statement (.ldaAbs addr) := ofWord (op := 0xAD) rfl rfl rfl

theorem ldaAbx (addr : Word) : Statement (.ldaAbx addr) := ofWord (op := 0xBD) rfl rfl rfl

theorem ldaAby (addr : Word) : Statement (.ldaAby addr) := ofWord (op := 0xB9) rfl rfl rfl

theorem ldaIzx (zp : Byte) : Statement (.ldaIzx zp) := ofByte (op := 0xA1) rfl rfl rfl

theorem ldaIzy (zp : Byte) : Statement (.ldaIzy zp) := ofByte (op := 0xB1) rfl rfl rfl

theorem ldxImm (v : Byte) : Statement (.ldxImm v) := ofByte (op := 0xA2) rfl rfl rfl

theorem ldxZp (zp : Byte) : Statement (.ldxZp zp) := ofByte (op := 0xA6) rfl rfl rfl

theorem ldxZpy (zp : Byte) : Statement (.ldxZpy zp) := ofByte (op := 0xB6) rfl rfl rfl

theorem ldxAbs (addr : Word) : Statement (.ldxAbs addr) := ofWord (op := 0xAE) rfl rfl rfl

theorem ldxAby (addr : Word) : Statement (.ldxAby addr) := ofWord (op := 0xBE) rfl rfl rfl

theorem ldyImm (v : Byte) : Statement (.ldyImm v) := ofByte (op := 0xA0) rfl rfl rfl

theorem ldyZp (zp : Byte) : Statement (.ldyZp zp) := ofByte (op := 0xA4) rfl rfl rfl

theorem ldyZpx (zp : Byte) : Statement (.ldyZpx zp) := ofByte (op := 0xB4) rfl rfl rfl

theorem ldyAbs (addr : Word) : Statement (.ldyAbs addr) := ofWord (op := 0xAC) rfl rfl rfl

theorem ldyAbx (addr : Word) : Statement (.ldyAbx addr) := ofWord (op := 0xBC) rfl rfl rfl

theorem staZp (zp : Byte) : Statement (.staZp zp) := ofByte (op := 0x85) rfl rfl rfl

theorem staZpx (zp : Byte) : Statement (.staZpx zp) := ofByte (op := 0x95) rfl rfl rfl

theorem staAbs (addr : Word) : Statement (.staAbs addr) := ofWord (op := 0x8D) rfl rfl rfl

theorem staAbx (addr : Word) : Statement (.staAbx addr) := ofWord (op := 0x9D) rfl rfl rfl

theorem staAby (addr : Word) : Statement (.staAby addr) := ofWord (op := 0x99) rfl rfl rfl

theorem staIzx (zp : Byte) : Statement (.staIzx zp) := ofByte (op := 0x81) rfl rfl rfl

theorem staIzy (zp : Byte) : Statement (.staIzy zp) := ofByte (op := 0x91) rfl rfl rfl

theorem stxZp (zp : Byte) : Statement (.stxZp zp) := ofByte (op := 0x86) rfl rfl rfl

theorem stxZpy (zp : Byte) : Statement (.stxZpy zp) := ofByte (op := 0x96) rfl rfl rfl

theorem stxAbs (addr : Word) : Statement (.stxAbs addr) := ofWord (op := 0x8E) rfl rfl rfl

theorem styZp (zp : Byte) : Statement (.styZp zp) := ofByte (op := 0x84) rfl rfl rfl

theorem styZpx (zp : Byte) : Statement (.styZpx zp) := ofByte (op := 0x94) rfl rfl rfl

theorem styAbs (addr : Word) : Statement (.styAbs addr) := ofWord (op := 0x8C) rfl rfl rfl

theorem tax : Statement .tax := ofImplied (op := 0xAA) rfl rfl

theorem tay : Statement .tay := ofImplied (op := 0xA8) rfl rfl

theorem txa : Statement .txa := ofImplied (op := 0x8A) rfl rfl

theorem tya : Statement .tya := ofImplied (op := 0x98) rfl rfl

theorem tsx : Statement .tsx := ofImplied (op := 0xBA) rfl rfl

theorem txs : Statement .txs := ofImplied (op := 0x9A) rfl rfl

theorem incZp (zp : Byte) : Statement (.incZp zp) := ofByte (op := 0xE6) rfl rfl rfl

theorem incZpx (zp : Byte) : Statement (.incZpx zp) := ofByte (op := 0xF6) rfl rfl rfl

theorem incAbs (addr : Word) : Statement (.incAbs addr) := ofWord (op := 0xEE) rfl rfl rfl

theorem incAbx (addr : Word) : Statement (.incAbx addr) := ofWord (op := 0xFE) rfl rfl rfl

theorem decZp (zp : Byte) : Statement (.decZp zp) := ofByte (op := 0xC6) rfl rfl rfl

theorem decZpx (zp : Byte) : Statement (.decZpx zp) := ofByte (op := 0xD6) rfl rfl rfl

theorem decAbs (addr : Word) : Statement (.decAbs addr) := ofWord (op := 0xCE) rfl rfl rfl

theorem decAbx (addr : Word) : Statement (.decAbx addr) := ofWord (op := 0xDE) rfl rfl rfl

theorem inx : Statement .inx := ofImplied (op := 0xE8) rfl rfl

theorem iny : Statement .iny := ofImplied (op := 0xC8) rfl rfl

theorem dex : Statement .dex := ofImplied (op := 0xCA) rfl rfl

theorem dey : Statement .dey := ofImplied (op := 0x88) rfl rfl

theorem pha : Statement .pha := ofImplied (op := 0x48) rfl rfl

theorem pla : Statement .pla := ofImplied (op := 0x68) rfl rfl

theorem php : Statement .php := ofImplied (op := 0x08) rfl rfl

theorem plp : Statement .plp := ofImplied (op := 0x28) rfl rfl

theorem andImm (v : Byte) : Statement (.andImm v) := ofByte (op := 0x29) rfl rfl rfl

theorem andZp (zp : Byte) : Statement (.andZp zp) := ofByte (op := 0x25) rfl rfl rfl

theorem andZpx (zp : Byte) : Statement (.andZpx zp) := ofByte (op := 0x35) rfl rfl rfl

theorem andAbs (addr : Word) : Statement (.andAbs addr) := ofWord (op := 0x2D) rfl rfl rfl

theorem andAbx (addr : Word) : Statement (.andAbx addr) := ofWord (op := 0x3D) rfl rfl rfl

theorem andAby (addr : Word) : Statement (.andAby addr) := ofWord (op := 0x39) rfl rfl rfl

theorem andIzx (zp : Byte) : Statement (.andIzx zp) := ofByte (op := 0x21) rfl rfl rfl

theorem andIzy (zp : Byte) : Statement (.andIzy zp) := ofByte (op := 0x31) rfl rfl rfl

theorem oraImm (v : Byte) : Statement (.oraImm v) := ofByte (op := 0x09) rfl rfl rfl

theorem oraZp (zp : Byte) : Statement (.oraZp zp) := ofByte (op := 0x05) rfl rfl rfl

theorem oraZpx (zp : Byte) : Statement (.oraZpx zp) := ofByte (op := 0x15) rfl rfl rfl

theorem oraAbs (addr : Word) : Statement (.oraAbs addr) := ofWord (op := 0x0D) rfl rfl rfl

theorem oraAbx (addr : Word) : Statement (.oraAbx addr) := ofWord (op := 0x1D) rfl rfl rfl

theorem oraAby (addr : Word) : Statement (.oraAby addr) := ofWord (op := 0x19) rfl rfl rfl

theorem oraIzx (zp : Byte) : Statement (.oraIzx zp) := ofByte (op := 0x01) rfl rfl rfl

theorem oraIzy (zp : Byte) : Statement (.oraIzy zp) := ofByte (op := 0x11) rfl rfl rfl

theorem eorImm (v : Byte) : Statement (.eorImm v) := ofByte (op := 0x49) rfl rfl rfl

theorem eorZp (zp : Byte) : Statement (.eorZp zp) := ofByte (op := 0x45) rfl rfl rfl

theorem eorZpx (zp : Byte) : Statement (.eorZpx zp) := ofByte (op := 0x55) rfl rfl rfl

theorem eorAbs (addr : Word) : Statement (.eorAbs addr) := ofWord (op := 0x4D) rfl rfl rfl

theorem eorAbx (addr : Word) : Statement (.eorAbx addr) := ofWord (op := 0x5D) rfl rfl rfl

theorem eorAby (addr : Word) : Statement (.eorAby addr) := ofWord (op := 0x59) rfl rfl rfl

theorem eorIzx (zp : Byte) : Statement (.eorIzx zp) := ofByte (op := 0x41) rfl rfl rfl

theorem eorIzy (zp : Byte) : Statement (.eorIzy zp) := ofByte (op := 0x51) rfl rfl rfl

theorem bitZp (zp : Byte) : Statement (.bitZp zp) := ofByte (op := 0x24) rfl rfl rfl

theorem bitAbs (addr : Word) : Statement (.bitAbs addr) := ofWord (op := 0x2C) rfl rfl rfl

theorem adcImm (v : Byte) : Statement (.adcImm v) := ofByte (op := 0x69) rfl rfl rfl

theorem adcZp (zp : Byte) : Statement (.adcZp zp) := ofByte (op := 0x65) rfl rfl rfl

theorem adcZpx (zp : Byte) : Statement (.adcZpx zp) := ofByte (op := 0x75) rfl rfl rfl

theorem adcAbs (addr : Word) : Statement (.adcAbs addr) := ofWord (op := 0x6D) rfl rfl rfl

theorem adcAbx (addr : Word) : Statement (.adcAbx addr) := ofWord (op := 0x7D) rfl rfl rfl

theorem adcAby (addr : Word) : Statement (.adcAby addr) := ofWord (op := 0x79) rfl rfl rfl

theorem adcIzx (zp : Byte) : Statement (.adcIzx zp) := ofByte (op := 0x61) rfl rfl rfl

theorem adcIzy (zp : Byte) : Statement (.adcIzy zp) := ofByte (op := 0x71) rfl rfl rfl

theorem sbcImm (v : Byte) : Statement (.sbcImm v) := ofByte (op := 0xE9) rfl rfl rfl

theorem sbcZp (zp : Byte) : Statement (.sbcZp zp) := ofByte (op := 0xE5) rfl rfl rfl

theorem sbcZpx (zp : Byte) : Statement (.sbcZpx zp) := ofByte (op := 0xF5) rfl rfl rfl

theorem sbcAbs (addr : Word) : Statement (.sbcAbs addr) := ofWord (op := 0xED) rfl rfl rfl

theorem sbcAbx (addr : Word) : Statement (.sbcAbx addr) := ofWord (op := 0xFD) rfl rfl rfl

theorem sbcAby (addr : Word) : Statement (.sbcAby addr) := ofWord (op := 0xF9) rfl rfl rfl

theorem sbcIzx (zp : Byte) : Statement (.sbcIzx zp) := ofByte (op := 0xE1) rfl rfl rfl

theorem sbcIzy (zp : Byte) : Statement (.sbcIzy zp) := ofByte (op := 0xF1) rfl rfl rfl

theorem aslAcc : Statement .aslAcc := ofImplied (op := 0x0A) rfl rfl

theorem aslZp (zp : Byte) : Statement (.aslZp zp) := ofByte (op := 0x06) rfl rfl rfl

theorem aslZpx (zp : Byte) : Statement (.aslZpx zp) := ofByte (op := 0x16) rfl rfl rfl

theorem aslAbs (addr : Word) : Statement (.aslAbs addr) := ofWord (op := 0x0E) rfl rfl rfl

theorem aslAbx (addr : Word) : Statement (.aslAbx addr) := ofWord (op := 0x1E) rfl rfl rfl

theorem lsrAcc : Statement .lsrAcc := ofImplied (op := 0x4A) rfl rfl

theorem lsrZp (zp : Byte) : Statement (.lsrZp zp) := ofByte (op := 0x46) rfl rfl rfl

theorem lsrZpx (zp : Byte) : Statement (.lsrZpx zp) := ofByte (op := 0x56) rfl rfl rfl

theorem lsrAbs (addr : Word) : Statement (.lsrAbs addr) := ofWord (op := 0x4E) rfl rfl rfl

theorem lsrAbx (addr : Word) : Statement (.lsrAbx addr) := ofWord (op := 0x5E) rfl rfl rfl

theorem rolAcc : Statement .rolAcc := ofImplied (op := 0x2A) rfl rfl

theorem rolZp (zp : Byte) : Statement (.rolZp zp) := ofByte (op := 0x26) rfl rfl rfl

theorem rolZpx (zp : Byte) : Statement (.rolZpx zp) := ofByte (op := 0x36) rfl rfl rfl

theorem rolAbs (addr : Word) : Statement (.rolAbs addr) := ofWord (op := 0x2E) rfl rfl rfl

theorem rolAbx (addr : Word) : Statement (.rolAbx addr) := ofWord (op := 0x3E) rfl rfl rfl

theorem rorAcc : Statement .rorAcc := ofImplied (op := 0x6A) rfl rfl

theorem rorZp (zp : Byte) : Statement (.rorZp zp) := ofByte (op := 0x66) rfl rfl rfl

theorem rorZpx (zp : Byte) : Statement (.rorZpx zp) := ofByte (op := 0x76) rfl rfl rfl

theorem rorAbs (addr : Word) : Statement (.rorAbs addr) := ofWord (op := 0x6E) rfl rfl rfl

theorem rorAbx (addr : Word) : Statement (.rorAbx addr) := ofWord (op := 0x7E) rfl rfl rfl

theorem cmpImm (v : Byte) : Statement (.cmpImm v) := ofByte (op := 0xC9) rfl rfl rfl

theorem cmpZp (zp : Byte) : Statement (.cmpZp zp) := ofByte (op := 0xC5) rfl rfl rfl

theorem cmpZpx (zp : Byte) : Statement (.cmpZpx zp) := ofByte (op := 0xD5) rfl rfl rfl

theorem cmpAbs (addr : Word) : Statement (.cmpAbs addr) := ofWord (op := 0xCD) rfl rfl rfl

theorem cmpAbx (addr : Word) : Statement (.cmpAbx addr) := ofWord (op := 0xDD) rfl rfl rfl

theorem cmpAby (addr : Word) : Statement (.cmpAby addr) := ofWord (op := 0xD9) rfl rfl rfl

theorem cmpIzx (zp : Byte) : Statement (.cmpIzx zp) := ofByte (op := 0xC1) rfl rfl rfl

theorem cmpIzy (zp : Byte) : Statement (.cmpIzy zp) := ofByte (op := 0xD1) rfl rfl rfl

theorem cpxImm (v : Byte) : Statement (.cpxImm v) := ofByte (op := 0xE0) rfl rfl rfl

theorem cpxZp (zp : Byte) : Statement (.cpxZp zp) := ofByte (op := 0xE4) rfl rfl rfl

theorem cpxAbs (addr : Word) : Statement (.cpxAbs addr) := ofWord (op := 0xEC) rfl rfl rfl

theorem cpyImm (v : Byte) : Statement (.cpyImm v) := ofByte (op := 0xC0) rfl rfl rfl

theorem cpyZp (zp : Byte) : Statement (.cpyZp zp) := ofByte (op := 0xC4) rfl rfl rfl

theorem cpyAbs (addr : Word) : Statement (.cpyAbs addr) := ofWord (op := 0xCC) rfl rfl rfl

theorem bpl (off : Byte) : Statement (.bpl off) := ofByte (op := 0x10) rfl rfl rfl

theorem bmi (off : Byte) : Statement (.bmi off) := ofByte (op := 0x30) rfl rfl rfl

theorem bvc (off : Byte) : Statement (.bvc off) := ofByte (op := 0x50) rfl rfl rfl

theorem bvs (off : Byte) : Statement (.bvs off) := ofByte (op := 0x70) rfl rfl rfl

theorem bcc (off : Byte) : Statement (.bcc off) := ofByte (op := 0x90) rfl rfl rfl

theorem bcs (off : Byte) : Statement (.bcs off) := ofByte (op := 0xB0) rfl rfl rfl

theorem bne (off : Byte) : Statement (.bne off) := ofByte (op := 0xD0) rfl rfl rfl

theorem beq (off : Byte) : Statement (.beq off) := ofByte (op := 0xF0) rfl rfl rfl

theorem jmpAbs (addr : Word) : Statement (.jmpAbs addr) := ofWord (op := 0x4C) rfl rfl rfl

theorem jmpInd (ptr : Word) : Statement (.jmpInd ptr) := ofWord (op := 0x6C) rfl rfl rfl

theorem jsr (addr : Word) : Statement (.jsr addr) := ofWord (op := 0x20) rfl rfl rfl

theorem rts : Statement .rts := ofImplied (op := 0x60) rfl rfl

theorem clc : Statement .clc := ofImplied (op := 0x18) rfl rfl

theorem sec : Statement .sec := ofImplied (op := 0x38) rfl rfl

theorem cli : Statement .cli := ofImplied (op := 0x58) rfl rfl

theorem sei : Statement .sei := ofImplied (op := 0x78) rfl rfl

theorem clv : Statement .clv := ofImplied (op := 0xB8) rfl rfl

theorem cld : Statement .cld := ofImplied (op := 0xD8) rfl rfl

theorem sed : Statement .sed := ofImplied (op := 0xF8) rfl rfl

theorem brk : Statement .brk := ofImplied (op := 0x00) rfl rfl

theorem rti : Statement .rti := ofImplied (op := 0x40) rfl rfl

theorem nop : Statement .nop := ofImplied (op := 0xEA) rfl rfl

end Sys2Proof.Laws.Encoding
end

