-- ==== Sys2Proof/Tests/Slice0.lean ====
section
/-! SUPPORT. Tests of the model on fixed values, and witnesses that the hypotheses of the obligations can be met. The
expected values of the tests are those of spec/95_test_vectors.md, of the grid of spec/30_encoding.md R120, or worked by
hand from the rule named. -/

namespace Sys2Proof.Machine

/-! ### Helpers -/

/-- The default start state of spec/95_test_vectors.md: the state after reset, `PC` at `0x0200`, the instruction's
bytes there; and some more bytes placed. -/
def start (bytes : List Byte) (more : List (Word × Byte)) : State :=
  more.foldl (fun s c => placeByte c.1 c.2 s) (placeBytes 0x0200 bytes (State.reset.setPc 0x0200))

/-- One step ends in a next state with the property. -/
def stepHas (s : State) (ok : State → Bool) : Bool :=
  match step s with
  | .next t => ok t
  | .fault _ | .refused _ => false

/-- `A, X, Y, SP, P, PC`. -/
def regs (s : State) : Byte × Byte × Byte × Byte × Byte × Word := (s.a, s.x, s.y, s.sp, s.p, s.pc)

/-- Each opcode of the list, with operand bytes `9C 35`, decodes to its instruction, and encodes back. -/
def rowDecodes (row : List (Byte × Instr)) : Bool :=
  row.all fun c =>
    match decode [c.1, 0x9C, 0x35] with
    | .ok (i, rest) => i == c.2 && encode i ++ rest == [c.1, 0x9C, 0x35]
    | .error _ => false

/-! ### Well-formedness -/

/-- R11, R121: an instruction that `OPCODE_SET` lacks is ill formed, its neighbours are not. -/
theorem test_wellFormed_absent_opcode : wellFormedIn [0xEA] .nop = false ∧ wellFormedIn [0xEA] .inx = true := by decide

/-- The decoder refuses it, too. -/
theorem test_decode_absent_opcode : decodeWith [0xEA] [0xEA] = .error (.unknownOpcode 0xEA) := by decide

/-- R11: the platform has every documented instruction. -/
theorem test_wellFormed_platform : wellFormed (.jmpInd 0x12FF) = true := by decide

/-! ### Decoding: every constructor -/

/-- Row 0_ of the grid of R120, each opcode followed by `9C 35`. -/
theorem test_decode_row_0 : rowDecodes
      [(0x00, .brk), (0x01, .oraIzx 0x9C), (0x05, .oraZp 0x9C), (0x06, .aslZp 0x9C), (0x08, .php),
        (0x09, .oraImm 0x9C), (0x0A, .aslAcc), (0x0D, .oraAbs 0x359C), (0x0E, .aslAbs 0x359C)] = true := by decide

/-- Row 1_ of the grid of R120, each opcode followed by `9C 35`. -/
theorem test_decode_row_1 : rowDecodes
      [(0x10, .bpl 0x9C), (0x11, .oraIzy 0x9C), (0x15, .oraZpx 0x9C), (0x16, .aslZpx 0x9C), (0x18, .clc),
        (0x19, .oraAby 0x359C), (0x1D, .oraAbx 0x359C), (0x1E, .aslAbx 0x359C)] = true := by decide

/-- Row 2_ of the grid of R120, each opcode followed by `9C 35`. -/
theorem test_decode_row_2 : rowDecodes
      [(0x20, .jsr 0x359C), (0x21, .andIzx 0x9C), (0x24, .bitZp 0x9C), (0x25, .andZp 0x9C),
        (0x26, .rolZp 0x9C), (0x28, .plp), (0x29, .andImm 0x9C), (0x2A, .rolAcc), (0x2C, .bitAbs 0x359C),
        (0x2D, .andAbs 0x359C), (0x2E, .rolAbs 0x359C)] = true := by decide

/-- Row 3_ of the grid of R120, each opcode followed by `9C 35`. -/
theorem test_decode_row_3 : rowDecodes
      [(0x30, .bmi 0x9C), (0x31, .andIzy 0x9C), (0x35, .andZpx 0x9C), (0x36, .rolZpx 0x9C), (0x38, .sec),
        (0x39, .andAby 0x359C), (0x3D, .andAbx 0x359C), (0x3E, .rolAbx 0x359C)] = true := by decide

/-- Row 4_ of the grid of R120, each opcode followed by `9C 35`. -/
theorem test_decode_row_4 : rowDecodes
      [(0x40, .rti), (0x41, .eorIzx 0x9C), (0x45, .eorZp 0x9C), (0x46, .lsrZp 0x9C), (0x48, .pha),
        (0x49, .eorImm 0x9C), (0x4A, .lsrAcc), (0x4C, .jmpAbs 0x359C), (0x4D, .eorAbs 0x359C),
        (0x4E, .lsrAbs 0x359C)] = true := by decide

/-- Row 5_ of the grid of R120, each opcode followed by `9C 35`. -/
theorem test_decode_row_5 : rowDecodes
      [(0x50, .bvc 0x9C), (0x51, .eorIzy 0x9C), (0x55, .eorZpx 0x9C), (0x56, .lsrZpx 0x9C), (0x58, .cli),
        (0x59, .eorAby 0x359C), (0x5D, .eorAbx 0x359C), (0x5E, .lsrAbx 0x359C)] = true := by decide

/-- Row 6_ of the grid of R120, each opcode followed by `9C 35`. -/
theorem test_decode_row_6 : rowDecodes
      [(0x60, .rts), (0x61, .adcIzx 0x9C), (0x65, .adcZp 0x9C), (0x66, .rorZp 0x9C), (0x68, .pla),
        (0x69, .adcImm 0x9C), (0x6A, .rorAcc), (0x6C, .jmpInd 0x359C), (0x6D, .adcAbs 0x359C),
        (0x6E, .rorAbs 0x359C)] = true := by decide

/-- Row 7_ of the grid of R120, each opcode followed by `9C 35`. -/
theorem test_decode_row_7 : rowDecodes
      [(0x70, .bvs 0x9C), (0x71, .adcIzy 0x9C), (0x75, .adcZpx 0x9C), (0x76, .rorZpx 0x9C), (0x78, .sei),
        (0x79, .adcAby 0x359C), (0x7D, .adcAbx 0x359C), (0x7E, .rorAbx 0x359C)] = true := by decide

/-- Row 8_ of the grid of R120, each opcode followed by `9C 35`. -/
theorem test_decode_row_8 : rowDecodes
      [(0x81, .staIzx 0x9C), (0x84, .styZp 0x9C), (0x85, .staZp 0x9C), (0x86, .stxZp 0x9C), (0x88, .dey),
        (0x8A, .txa), (0x8C, .styAbs 0x359C), (0x8D, .staAbs 0x359C), (0x8E, .stxAbs 0x359C)] = true := by decide

/-- Row 9_ of the grid of R120, each opcode followed by `9C 35`. -/
theorem test_decode_row_9 : rowDecodes
      [(0x90, .bcc 0x9C), (0x91, .staIzy 0x9C), (0x94, .styZpx 0x9C), (0x95, .staZpx 0x9C),
        (0x96, .stxZpy 0x9C), (0x98, .tya), (0x99, .staAby 0x359C), (0x9A, .txs), (0x9D, .staAbx 0x359C)] = true := by decide

/-- Row A_ of the grid of R120, each opcode followed by `9C 35`. -/
theorem test_decode_row_A : rowDecodes
      [(0xA0, .ldyImm 0x9C), (0xA1, .ldaIzx 0x9C), (0xA2, .ldxImm 0x9C), (0xA4, .ldyZp 0x9C),
        (0xA5, .ldaZp 0x9C), (0xA6, .ldxZp 0x9C), (0xA8, .tay), (0xA9, .ldaImm 0x9C), (0xAA, .tax),
        (0xAC, .ldyAbs 0x359C), (0xAD, .ldaAbs 0x359C), (0xAE, .ldxAbs 0x359C)] = true := by decide

/-- Row B_ of the grid of R120, each opcode followed by `9C 35`. -/
theorem test_decode_row_B : rowDecodes
      [(0xB0, .bcs 0x9C), (0xB1, .ldaIzy 0x9C), (0xB4, .ldyZpx 0x9C), (0xB5, .ldaZpx 0x9C),
        (0xB6, .ldxZpy 0x9C), (0xB8, .clv), (0xB9, .ldaAby 0x359C), (0xBA, .tsx), (0xBC, .ldyAbx 0x359C),
        (0xBD, .ldaAbx 0x359C), (0xBE, .ldxAby 0x359C)] = true := by decide

/-- Row C_ of the grid of R120, each opcode followed by `9C 35`. -/
theorem test_decode_row_C : rowDecodes
      [(0xC0, .cpyImm 0x9C), (0xC1, .cmpIzx 0x9C), (0xC4, .cpyZp 0x9C), (0xC5, .cmpZp 0x9C),
        (0xC6, .decZp 0x9C), (0xC8, .iny), (0xC9, .cmpImm 0x9C), (0xCA, .dex), (0xCC, .cpyAbs 0x359C),
        (0xCD, .cmpAbs 0x359C), (0xCE, .decAbs 0x359C)] = true := by decide

/-- Row D_ of the grid of R120, each opcode followed by `9C 35`. -/
theorem test_decode_row_D : rowDecodes
      [(0xD0, .bne 0x9C), (0xD1, .cmpIzy 0x9C), (0xD5, .cmpZpx 0x9C), (0xD6, .decZpx 0x9C), (0xD8, .cld),
        (0xD9, .cmpAby 0x359C), (0xDD, .cmpAbx 0x359C), (0xDE, .decAbx 0x359C)] = true := by decide

/-- Row E_ of the grid of R120, each opcode followed by `9C 35`. -/
theorem test_decode_row_E : rowDecodes
      [(0xE0, .cpxImm 0x9C), (0xE1, .sbcIzx 0x9C), (0xE4, .cpxZp 0x9C), (0xE5, .sbcZp 0x9C),
        (0xE6, .incZp 0x9C), (0xE8, .inx), (0xE9, .sbcImm 0x9C), (0xEA, .nop), (0xEC, .cpxAbs 0x359C),
        (0xED, .sbcAbs 0x359C), (0xEE, .incAbs 0x359C)] = true := by decide

/-- Row F_ of the grid of R120, each opcode followed by `9C 35`. -/
theorem test_decode_row_F : rowDecodes
      [(0xF0, .beq 0x9C), (0xF1, .sbcIzy 0x9C), (0xF5, .sbcZpx 0x9C), (0xF6, .incZpx 0x9C), (0xF8, .sed),
        (0xF9, .sbcAby 0x359C), (0xFD, .sbcAbx 0x359C), (0xFE, .incAbx 0x359C)] = true := by decide

/-- R100: a missing operand byte is reported by name. -/
theorem test_decode_missing_operand : decode [0x8D, 0x00] = .error (.missingOperand 0x8D) := by decide

/-- The bit numbering of spec/opcode_table.json: byte 0 is the opcode. -/
theorem test_decodeTableWord : decodeTableWord 24 0x60008D = some (.staAbs 0x6000) := by decide

/-! ### One step of every instruction -/

/-- spec/95_test_vectors.md 2.1: `A9 00`, LDA #$00. -/
theorem test_lda_imm :
    stepHas ({ start [0xA9, 0x00] [] with a := 0x55 })
      (fun t => regs t == (0x00, 0x00, 0x00, 0xFF, 0x36, 0x0202)) = true := by decide

/-- spec/95_test_vectors.md 2.1: `B5 F0`, LDA $F0,X. -/
theorem test_lda_zpx :
    stepHas ({ start [0xB5, 0xF0] [(0x0010, 0xAA), (0x0110, 0xBB)] with x := 0x20 })
      (fun t => regs t == (0xAA, 0x20, 0x00, 0xFF, 0xB4, 0x0202)) = true := by decide

/-- spec/95_test_vectors.md 2.1: `B9 FF 7F`, LDA $7FFF,Y. -/
theorem test_lda_aby :
    stepHas ({ start [0xB9, 0xFF, 0x7F] [(0x8000, 0x99)] with y := 0x01 })
      (fun t => regs t == (0x99, 0x00, 0x01, 0xFF, 0xB4, 0x0203)) = true := by decide

/-- spec/95_test_vectors.md 2.1: `A1 FF`, LDA ($FF,X). -/
theorem test_lda_izx :
    stepHas (start [0xA1, 0xFF] [(0x00FF, 0x34), (0x0100, 0x12), (0x0000, 0x56), (0x1234, 0x42), (0x5634,
        0x99)])
      (fun t => regs t == (0x42, 0x00, 0x00, 0xFF, 0x34, 0x0202)) = true := by decide

/-- spec/95_test_vectors.md 2.1: `BD FF FF`, LDA $FFFF,X. -/
theorem test_lda_abx :
    stepHas ({ start [0xBD, 0xFF, 0xFF] [(0x0001, 0x42)] with x := 0x02 })
      (fun t => regs t == (0x42, 0x02, 0x00, 0xFF, 0x34, 0x0203)) = true := by decide

/-- spec/95_test_vectors.md 2.1: `B6 F0`, LDX $F0,Y. -/
theorem test_ldx_zpy :
    stepHas ({ start [0xB6, 0xF0] [(0x0010, 0xAA), (0x0110, 0xBB)] with y := 0x20 })
      (fun t => regs t == (0x00, 0xAA, 0x20, 0xFF, 0xB4, 0x0202)) = true := by decide

/-- spec/95_test_vectors.md 2.1: `AE 34 12`, LDX $1234. -/
theorem test_ldx_abs :
    stepHas ({ start [0xAE, 0x34, 0x12] [(0x1234, 0x00)] with x := 0x11 })
      (fun t => regs t == (0x00, 0x00, 0x00, 0xFF, 0x36, 0x0203)) = true := by decide

/-- spec/95_test_vectors.md 2.1: `BC 00 12`, LDY $1200,X. -/
theorem test_ldy_abx :
    stepHas ({ start [0xBC, 0x00, 0x12] [(0x1234, 0x42)] with x := 0x34 })
      (fun t => regs t == (0x00, 0x34, 0x42, 0xFF, 0x34, 0x0203)) = true := by decide

/-- spec/95_test_vectors.md 2.1: `B4 10`, LDY $10,X. -/
theorem test_ldy_zpx :
    stepHas ({ start [0xB4, 0x10] [(0x0011, 0xF0)] with x := 0x01 })
      (fun t => regs t == (0x00, 0x01, 0xF0, 0xFF, 0xB4, 0x0202)) = true := by decide

/-- spec/95_test_vectors.md 1.6: `8D 10 70`, STA $7010. -/
theorem test_sta_abs :
    stepHas ({ start [0x8D, 0x10, 0x70] [] with a := 0x41 })
      (fun t => regs t == (0x41, 0x00, 0x00, 0xFF, 0x34, 0x0203) && byteAt t 0x7010 == 0x41 &&
          t.dirty == true) = true := by decide

/-- spec/95_test_vectors.md 1.6: `8D 11 70`, STA $7011. -/
theorem test_sta_abs_second :
    stepHas ({ start [0x8D, 0x11, 0x70] [] with a := 0x41 })
      (fun t => regs t == (0x41, 0x00, 0x00, 0xFF, 0x34, 0x0203) && byteAt t 0x7011 == 0x41 &&
          t.dirty == false) = true := by decide

/-- spec/95_test_vectors.md 2.1: `95 FF`, STA $FF,X. -/
theorem test_sta_zpx :
    stepHas ({ start [0x95, 0xFF] [] with a := 0x42, x := 0x02 })
      (fun t => regs t == (0x42, 0x02, 0x00, 0xFF, 0x34, 0x0202) && byteAt t 0x0001 == 0x42 &&
          byteAt t 0x0101 == 0x00) = true := by decide

/-- spec/95_test_vectors.md 2.1: `91 10`, STA ($10),Y. -/
theorem test_sta_izy :
    stepHas ({ start [0x91, 0x10] [(0x0010, 0x10), (0x0011, 0x60)] with a := 0x42, y := 0x00 })
      (fun t => regs t == (0x42, 0x00, 0x00, 0xFF, 0x34, 0x0202) && byteAt t 0x6010 == 0x42 &&
          t.dirty == true) = true := by decide

/-- spec/95_test_vectors.md 2.1: `96 10`, STX $10,Y. -/
theorem test_stx_zpy :
    stepHas ({ start [0x96, 0x10] [] with x := 0x42, y := 0x01 })
      (fun t => regs t == (0x00, 0x42, 0x01, 0xFF, 0x34, 0x0202) && byteAt t 0x0011 == 0x42) = true := by decide

/-- spec/95_test_vectors.md 2.1: `8E 01 60`, STX $6001. -/
theorem test_stx_abs :
    stepHas ({ start [0x8E, 0x01, 0x60] [] with x := 0x42 })
      (fun t => regs t == (0x00, 0x42, 0x00, 0xFF, 0x34, 0x0203) && t.bank.portA == 0x42) = true := by decide

/-- spec/95_test_vectors.md 2.1: `94 10`, STY $10,X. -/
theorem test_sty_zpx :
    stepHas ({ start [0x94, 0x10] [] with y := 0x42, x := 0x01 })
      (fun t => regs t == (0x00, 0x01, 0x42, 0xFF, 0x34, 0x0202) && byteAt t 0x0011 == 0x42) = true := by decide

/-- spec/95_test_vectors.md 2.1: `8C 34 12`, STY $1234. -/
theorem test_sty_abs :
    stepHas ({ start [0x8C, 0x34, 0x12] [] with y := 0x42 })
      (fun t => regs t == (0x00, 0x00, 0x42, 0xFF, 0x34, 0x0203) && byteAt t 0x1234 == 0x42) = true := by decide

/-- spec/95_test_vectors.md 2.2: `AA`, TAX. -/
theorem test_tax :
    stepHas ({ start [0xAA] [] with a := 0x00, x := 0x55 })
      (fun t => regs t == (0x00, 0x00, 0x00, 0xFF, 0x36, 0x0201)) = true := by decide

/-- spec/95_test_vectors.md 2.2: `A8`, TAY. -/
theorem test_tay :
    stepHas ({ start [0xA8] [] with a := 0x7F, p := 0xB6 })
      (fun t => regs t == (0x7F, 0x00, 0x7F, 0xFF, 0x34, 0x0201)) = true := by decide

/-- spec/95_test_vectors.md 2.2: `8A`, TXA. -/
theorem test_txa :
    stepHas ({ start [0x8A] [] with x := 0xFF, a := 0x01 })
      (fun t => regs t == (0xFF, 0xFF, 0x00, 0xFF, 0xB4, 0x0201)) = true := by decide

/-- spec/95_test_vectors.md 2.2: `98`, TYA. -/
theorem test_tya :
    stepHas ({ start [0x98] [] with y := 0x00, a := 0x01 })
      (fun t => regs t == (0x00, 0x00, 0x00, 0xFF, 0x36, 0x0201)) = true := by decide

/-- spec/95_test_vectors.md 2.2: `BA`, TSX. -/
theorem test_tsx :
    stepHas (start [0xBA] [])
      (fun t => regs t == (0x00, 0xFF, 0x00, 0xFF, 0xB4, 0x0201)) = true := by decide

/-- spec/95_test_vectors.md 2.2: `9A`, TXS. -/
theorem test_txs :
    stepHas ({ start [0x9A] [] with x := 0x00, p := 0xB4 })
      (fun t => regs t == (0x00, 0x00, 0x00, 0x00, 0xB4, 0x0201)) = true := by decide

/-- spec/95_test_vectors.md 2.3: `EE 00 80`, INC $8000. -/
theorem test_inc_abs :
    stepHas (start [0xEE, 0x00, 0x80] [(0x8000, 0xFF)])
      (fun t => regs t == (0x00, 0x00, 0x00, 0xFF, 0x37, 0x0203) && byteAt t 0x8000 == 0xFF &&
          t.diag.length == 1) = true := by decide

/-- spec/95_test_vectors.md 2.3: `F6 10`, INC $10,X. -/
theorem test_inc_zpx :
    stepHas ({ start [0xF6, 0x10] [(0x0011, 0x7F)] with x := 0x01, p := 0x35 })
      (fun t => regs t == (0x00, 0x01, 0x00, 0xFF, 0xB4, 0x0202) && byteAt t 0x0011 == 0x80) = true := by decide

/-- spec/95_test_vectors.md 2.3: `C6 10`, DEC $10. -/
theorem test_dec_zp :
    stepHas (start [0xC6, 0x10] [(0x0010, 0x00)])
      (fun t => regs t == (0x00, 0x00, 0x00, 0xFF, 0xB5, 0x0202) && byteAt t 0x0010 == 0xFF) = true := by decide

/-- spec/95_test_vectors.md 2.3: `DE 00 12`, DEC $1200,X. -/
theorem test_dec_abx :
    stepHas ({ start [0xDE, 0x00, 0x12] [(0x1234, 0x00)] with x := 0x34 })
      (fun t => regs t == (0x00, 0x34, 0x00, 0xFF, 0xB5, 0x0203) && byteAt t 0x1234 == 0xFF) = true := by decide

/-- spec/95_test_vectors.md 2.3: `E8`, INX. -/
theorem test_inx :
    stepHas ({ start [0xE8] [] with x := 0x7F, p := 0x35 })
      (fun t => regs t == (0x00, 0x80, 0x00, 0xFF, 0xB4, 0x0201)) = true := by decide

/-- spec/95_test_vectors.md 2.3: `C8`, INY. -/
theorem test_iny :
    stepHas ({ start [0xC8] [] with y := 0xFF })
      (fun t => regs t == (0x00, 0x00, 0x00, 0xFF, 0x37, 0x0201)) = true := by decide

/-- spec/95_test_vectors.md 2.3: `CA`, DEX. -/
theorem test_dex :
    stepHas ({ start [0xCA] [] with x := 0x00 })
      (fun t => regs t == (0x00, 0xFF, 0x00, 0xFF, 0xB5, 0x0201)) = true := by decide

/-- spec/95_test_vectors.md 2.3: `88`, DEY. -/
theorem test_dey :
    stepHas ({ start [0x88] [] with y := 0x01, p := 0x35 })
      (fun t => regs t == (0x00, 0x00, 0x00, 0xFF, 0x36, 0x0201)) = true := by decide

/-- spec/95_test_vectors.md 2.4: `48`, PHA. -/
theorem test_pha :
    stepHas ({ start [0x48] [] with a := 0xAA, sp := 0x00 })
      (fun t => regs t == (0xAA, 0x00, 0x00, 0xFF, 0x34, 0x0201) && byteAt t 0x01FF == 0xAA &&
          byteAt t 0x0100 == 0x00) = true := by decide

/-- spec/95_test_vectors.md 2.4: `68`, PLA. -/
theorem test_pla :
    stepHas ({ start [0x68] [(0x01FF, 0x42), (0x0100, 0x99)] with sp := 0xFF })
      (fun t => regs t == (0x42, 0x00, 0x00, 0x00, 0x34, 0x0201)) = true := by decide

/-- spec/95_test_vectors.md 2.4: `08`, PHP. -/
theorem test_php :
    stepHas ({ start [0x08] [] with p := 0xC3 })
      (fun t => regs t == (0x00, 0x00, 0x00, 0xFE, 0xC3, 0x0201) && byteAt t 0x01FE == 0xDB) = true := by decide

/-- spec/95_test_vectors.md 2.4: `28`, PLP. -/
theorem test_plp :
    stepHas ({ start [0x28] [(0x01FE, 0xFF)] with sp := 0xFE })
      (fun t => regs t == (0x00, 0x00, 0x00, 0xFF, 0xE7, 0x0201)) = true := by decide

/-- spec/95_test_vectors.md 2.5.1: `29 FF`, AND #$FF. -/
theorem test_and_imm :
    stepHas ({ start [0x29, 0xFF] [] with a := 0x42, p := 0x75 })
      (fun t => regs t == (0x42, 0x00, 0x00, 0xFF, 0x75, 0x0202)) = true := by decide

/-- spec/95_test_vectors.md 2.5.1: `0D 34 12`, ORA $1234. -/
theorem test_ora_abs :
    stepHas ({ start [0x0D, 0x34, 0x12] [(0x1234, 0x30)] with a := 0x0F })
      (fun t => regs t == (0x3F, 0x00, 0x00, 0xFF, 0x34, 0x0203)) = true := by decide

/-- spec/95_test_vectors.md 2.5.1: `51 10`, EOR ($10),Y. -/
theorem test_eor_izy :
    stepHas ({ start [0x51, 0x10] [(0x0010, 0x00), (0x0011, 0x12), (0x1202, 0x0F)] with
        a := 0x55,
        y := 0x02 })
      (fun t => regs t == (0x5A, 0x00, 0x02, 0xFF, 0x34, 0x0202)) = true := by decide

/-- spec/95_test_vectors.md 2.5.1: `24 10`, BIT $10. -/
theorem test_bit_zp :
    stepHas ({ start [0x24, 0x10] [(0x0010, 0xC0)] with a := 0x01 })
      (fun t => regs t == (0x01, 0x00, 0x00, 0xFF, 0xF6, 0x0202)) = true := by decide

/-- spec/95_test_vectors.md 2.5.1: `2C 34 12`, BIT $1234. -/
theorem test_bit_abs :
    stepHas ({ start [0x2C, 0x34, 0x12] [(0x1234, 0x80)] with a := 0x80 })
      (fun t => regs t == (0x80, 0x00, 0x00, 0xFF, 0xB4, 0x0203)) = true := by decide

/-- spec/95_test_vectors.md 2.5.2: `69 90`, ADC #$90. -/
theorem test_adc_imm :
    stepHas ({ start [0x69, 0x90] [] with a := 0xD0 })
      (fun t => regs t == (0x60, 0x00, 0x00, 0xFF, 0x75, 0x0202)) = true := by decide

/-- spec/95_test_vectors.md 2.5.2: `69 01`, ADC #$01. -/
theorem test_adc_imm_second :
    stepHas ({ start [0x69, 0x01] [] with a := 0x99, p := 0x3C })
      (fun t => regs t == (0x9A, 0x00, 0x00, 0xFF, 0xBC, 0x0202)) = true := by decide

/-- spec/95_test_vectors.md 2.5.2: `E9 FF`, SBC #$FF. -/
theorem test_sbc_imm :
    stepHas ({ start [0xE9, 0xFF] [] with a := 0x7F, p := 0x35 })
      (fun t => regs t == (0x80, 0x00, 0x00, 0xFF, 0xF4, 0x0202)) = true := by decide

/-- spec/95_test_vectors.md 2.5.2: `E9 01`, SBC #$01. -/
theorem test_sbc_imm_second :
    stepHas ({ start [0xE9, 0x01] [] with a := 0x10, p := 0x3D })
      (fun t => regs t == (0x0F, 0x00, 0x00, 0xFF, 0x3D, 0x0202)) = true := by decide

/-- spec/95_test_vectors.md 2.6: `0A`, ASL A. -/
theorem test_asl_acc :
    stepHas ({ start [0x0A] [] with a := 0x81 })
      (fun t => regs t == (0x40, 0x00, 0x00, 0xFF, 0x35, 0x0201)) = true := by decide

/-- spec/95_test_vectors.md 2.6: `0E 34 12`, ASL $1234. -/
theorem test_asl_abs :
    stepHas (start [0x0E, 0x34, 0x12] [(0x1234, 0xFE)])
      (fun t => regs t == (0x00, 0x00, 0x00, 0xFF, 0x34, 0x0203) && byteAt t 0x1234 == 0x7F) = true := by decide

/-- spec/95_test_vectors.md 2.6: `4E 00 60`, LSR $6000. -/
theorem test_lsr_abs :
    stepHas ({ start [0x4E, 0x00, 0x60] [] with bank := { IoBank.launch with portB := 0x82 } })
      (fun t => regs t == (0x00, 0x00, 0x00, 0xFF, 0x34, 0x0203) && t.bank.portB == 0x41) = true := by decide

/-- spec/95_test_vectors.md 2.6: `46 10`, LSR $10. -/
theorem test_lsr_zp :
    stepHas (start [0x46, 0x10] [(0x0010, 0x03)])
      (fun t => regs t == (0x00, 0x00, 0x00, 0xFF, 0x35, 0x0202) && byteAt t 0x0010 == 0x01) = true := by decide

/-- spec/95_test_vectors.md 2.6: `2A`, ROL A. -/
theorem test_rol_acc :
    stepHas ({ start [0x2A] [] with a := 0x02, p := 0x35 })
      (fun t => regs t == (0x81, 0x00, 0x00, 0xFF, 0xB4, 0x0201)) = true := by decide

/-- spec/95_test_vectors.md 2.6: `2E 34 12`, ROL $1234. -/
theorem test_rol_abs :
    stepHas ({ start [0x2E, 0x34, 0x12] [(0x1234, 0x80)] with p := 0x35 })
      (fun t => regs t == (0x00, 0x00, 0x00, 0xFF, 0xB4, 0x0203) && byteAt t 0x1234 == 0xC0) = true := by decide

/-- spec/95_test_vectors.md 2.6: `6A`, ROR A. -/
theorem test_ror_acc :
    stepHas ({ start [0x6A] [] with a := 0x04, p := 0x35 })
      (fun t => regs t == (0x03, 0x00, 0x00, 0xFF, 0x34, 0x0201)) = true := by decide

/-- spec/95_test_vectors.md 2.6: `66 10`, ROR $10. -/
theorem test_ror_zp :
    stepHas ({ start [0x66, 0x10] [(0x0010, 0x80)] with p := 0x35 })
      (fun t => regs t == (0x00, 0x00, 0x00, 0xFF, 0x34, 0x0202) && byteAt t 0x0010 == 0x41) = true := by decide

/-- spec/95_test_vectors.md 2.7: `C9 FF`, CMP #$FF. -/
theorem test_cmp_imm :
    stepHas ({ start [0xC9, 0xFF] [] with a := 0x00, p := 0x75 })
      (fun t => regs t == (0x00, 0x00, 0x00, 0xFF, 0x74, 0x0202)) = true := by decide

/-- spec/95_test_vectors.md 2.7: `C9 01`, CMP #$01. -/
theorem test_cmp_imm_second :
    stepHas ({ start [0xC9, 0x01] [] with a := 0x80 })
      (fun t => regs t == (0x80, 0x00, 0x00, 0xFF, 0x35, 0x0202)) = true := by decide

/-- spec/95_test_vectors.md 2.7: `EC 34 12`, CPX $1234. -/
theorem test_cpx_abs :
    stepHas ({ start [0xEC, 0x34, 0x12] [(0x1234, 0x7F)] with x := 0xFF })
      (fun t => regs t == (0x00, 0xFF, 0x00, 0xFF, 0xB5, 0x0203)) = true := by decide

/-- spec/95_test_vectors.md 2.7: `C0 10`, CPY #$10. -/
theorem test_cpy_imm :
    stepHas ({ start [0xC0, 0x10] [] with y := 0x0F })
      (fun t => regs t == (0x00, 0x00, 0x0F, 0xFF, 0xB4, 0x0202)) = true := by decide

/-- spec/95_test_vectors.md 2.8: `10 10`, BPL $0212. -/
theorem test_bpl :
    stepHas ({ start [0x10, 0x10] [] with p := 0x34 })
      (fun t => regs t == (0x00, 0x00, 0x00, 0xFF, 0x34, 0x0212)) = true := by decide

/-- spec/95_test_vectors.md 2.8: `30 10`, BMI $0212. -/
theorem test_bmi :
    stepHas ({ start [0x30, 0x10] [] with p := 0xB4 })
      (fun t => regs t == (0x00, 0x00, 0x00, 0xFF, 0xB4, 0x0212)) = true := by decide

/-- spec/95_test_vectors.md 2.8: `50 10`, BVC $0212. -/
theorem test_bvc :
    stepHas ({ start [0x50, 0x10] [] with p := 0x74 })
      (fun t => regs t == (0x00, 0x00, 0x00, 0xFF, 0x74, 0x0202)) = true := by decide

/-- spec/95_test_vectors.md 2.8: `70 10`, BVS $0212. -/
theorem test_bvs :
    stepHas ({ start [0x70, 0x10] [] with p := 0x74 })
      (fun t => regs t == (0x00, 0x00, 0x00, 0xFF, 0x74, 0x0212)) = true := by decide

/-- spec/95_test_vectors.md 2.8: `90 10`, BCC $0212. -/
theorem test_bcc :
    stepHas ({ start [0x90, 0x10] [] with p := 0x35 })
      (fun t => regs t == (0x00, 0x00, 0x00, 0xFF, 0x35, 0x0202)) = true := by decide

/-- spec/95_test_vectors.md 2.8: `B0 10`, BCS $0212. -/
theorem test_bcs :
    stepHas ({ start [0xB0, 0x10] [] with p := 0x35 })
      (fun t => regs t == (0x00, 0x00, 0x00, 0xFF, 0x35, 0x0212)) = true := by decide

/-- spec/95_test_vectors.md 2.8: `D0 80`, BNE $0182. -/
theorem test_bne :
    stepHas (start [0xD0, 0x80] [])
      (fun t => regs t == (0x00, 0x00, 0x00, 0xFF, 0x34, 0x0182)) = true := by decide

/-- spec/95_test_vectors.md 2.8: `F0 10`, BEQ $0212. -/
theorem test_beq :
    stepHas ({ start [0xF0, 0x10] [] with p := 0x36 })
      (fun t => regs t == (0x00, 0x00, 0x00, 0xFF, 0x36, 0x0212)) = true := by decide

/-- spec/95_test_vectors.md 2.9: `4C 34 12`, JMP $1234. -/
theorem test_jmp_abs :
    stepHas (start [0x4C, 0x34, 0x12] [])
      (fun t => regs t == (0x00, 0x00, 0x00, 0xFF, 0x34, 0x1234)) = true := by decide

/-- spec/95_test_vectors.md 2.9: `6C FF 12`, JMP ($12FF). -/
theorem test_jmp_ind :
    stepHas (start [0x6C, 0xFF, 0x12] [(0x12FF, 0x78), (0x1300, 0x56), (0x1200, 0x99)])
      (fun t => regs t == (0x00, 0x00, 0x00, 0xFF, 0x34, 0x5678)) = true := by decide

/-- spec/95_test_vectors.md 1.8: `6C 0F 60`, JMP ($600F). -/
theorem test_jmp_ind_second :
    stepHas ({ start [0x6C, 0x0F, 0x60] [(0x6010, 0x12)] with
        bank := { IoBank.launch with interruptId := 0x34 } })
      (fun t => regs t == (0x00, 0x00, 0x00, 0xFF, 0x34, 0x1234)) = true := by decide

/-- spec/95_test_vectors.md 2.9: `20 34 12`, JSR $1234. -/
theorem test_jsr :
    stepHas ({ start [0x20, 0x34, 0x12] [] with sp := 0x01 })
      (fun t => regs t == (0x00, 0x00, 0x00, 0xFF, 0x34, 0x1234) && byteAt t 0x0100 == 0x02 &&
          byteAt t 0x01FF == 0x02) = true := by decide

/-- spec/95_test_vectors.md 2.9: `60`, RTS. -/
theorem test_rts :
    stepHas ({ start [0x60] [(0x01FD, 0xFF), (0x01FE, 0xFF)] with sp := 0xFD })
      (fun t => regs t == (0x00, 0x00, 0x00, 0xFF, 0x34, 0x0000)) = true := by decide

/-- spec/95_test_vectors.md 2.10: `18`, CLC. -/
theorem test_clc :
    stepHas ({ start [0x18] [] with p := 0xFF })
      (fun t => regs t == (0x00, 0x00, 0x00, 0xFF, 0xFE, 0x0201)) = true := by decide

/-- spec/95_test_vectors.md 2.10: `38`, SEC. -/
theorem test_sec :
    stepHas ({ start [0x38] [] with p := 0x00 })
      (fun t => regs t == (0x00, 0x00, 0x00, 0xFF, 0x01, 0x0201)) = true := by decide

/-- spec/95_test_vectors.md 2.10: `58`, CLI. -/
theorem test_cli :
    stepHas ({ start [0x58] [] with p := 0xFF })
      (fun t => regs t == (0x00, 0x00, 0x00, 0xFF, 0xFB, 0x0201)) = true := by decide

/-- spec/95_test_vectors.md 2.10: `78`, SEI. -/
theorem test_sei :
    stepHas ({ start [0x78] [] with p := 0x00 })
      (fun t => regs t == (0x00, 0x00, 0x00, 0xFF, 0x04, 0x0201)) = true := by decide

/-- spec/95_test_vectors.md 2.10: `B8`, CLV. -/
theorem test_clv :
    stepHas ({ start [0xB8] [] with p := 0xFF })
      (fun t => regs t == (0x00, 0x00, 0x00, 0xFF, 0xBF, 0x0201)) = true := by decide

/-- spec/95_test_vectors.md 2.10: `D8`, CLD. -/
theorem test_cld :
    stepHas ({ start [0xD8] [] with p := 0xFF })
      (fun t => regs t == (0x00, 0x00, 0x00, 0xFF, 0xF7, 0x0201)) = true := by decide

/-- spec/95_test_vectors.md 2.10: `F8`, SED. -/
theorem test_sed :
    stepHas ({ start [0xF8] [] with p := 0x00 })
      (fun t => regs t == (0x00, 0x00, 0x00, 0xFF, 0x08, 0x0201)) = true := by decide

/-- spec/95_test_vectors.md 2.10: `EA`, NOP. -/
theorem test_nop :
    stepHas ({ start [0xEA] [] with p := 0xC3, a := 0x11, x := 0x22, y := 0x33 })
      (fun t => regs t == (0x11, 0x22, 0x33, 0xFF, 0xC3, 0x0201)) = true := by decide

/-- spec/95_test_vectors.md 2.10: `00 EA`, BRK; NOP. -/
theorem test_brk :
    stepHas ({ start [0x00, 0xEA] [(0xFFFE, 0x00), (0xFFFF, 0x90)] with p := 0xC1 })
      (fun t => regs t == (0x00, 0x00, 0x00, 0xFC, 0xD5, 0x9000) && byteAt t 0x01FE == 0x02 &&
          byteAt t 0x01FD == 0x02 && byteAt t 0x01FC == 0xD9) = true := by decide

/-- spec/95_test_vectors.md 2.10: `00 EA`, BRK; NOP. -/
theorem test_brk_second :
    stepHas ({ start [0x00, 0xEA] [(0xFFFE, 0x00), (0xFFFF, 0x90)] with p := 0x34 })
      (fun t => regs t == (0x00, 0x00, 0x00, 0xFF, 0x34, 0x0201) && byteAt t 0x01FE == 0x00 &&
          byteAt t 0x01FD == 0x00 && byteAt t 0x01FC == 0x00) = true := by decide

/-- spec/95_test_vectors.md 2.10: `40`, RTI. -/
theorem test_rti :
    stepHas ({ start [0x40] [(0x01FE, 0x00), (0x01FF, 0x34), (0x0100, 0x12)] with sp := 0xFE })
      (fun t => regs t == (0x00, 0x00, 0x00, 0x01, 0x00, 0x1234)) = true := by decide

/-- spec/95_test_vectors.md 2.10: `02`, .byte $02. -/
theorem test_unknown_opcode :
    stepHas ({ start [0x02] [] with p := 0xC3, a := 0x11 })
      (fun t => regs t == (0x11, 0x00, 0x00, 0xFF, 0xC3, 0x0201) && t.diag.length == 1) = true := by decide

/-- spec/95_test_vectors.md 2.12: `AD 08 60`, LDA $6008. -/
theorem test_lda_abs :
    stepHas ({ start [0xAD, 0x08, 0x60] [] with
        cart := [(0x123456, 0xC3)],
        bank := { IoBank.launch with cartLo := 0x56, cartMid := 0x34, cartHi := 0x12 } })
      (fun t => regs t == (0xC3, 0x00, 0x00, 0xFF, 0xB4, 0x0203)) = true := by decide

/-- spec/95_test_vectors.md 2.12: `8E 08 60`, STX $6008. -/
theorem test_stx_abs_second :
    stepHas (start [0x8E, 0x08, 0x60] [])
      (fun t => regs t == (0x00, 0x00, 0x00, 0xFF, 0x34, 0x0203) && t.fatal) = true := by decide

/-- spec/95_test_vectors.md 2.12: `AD 0A 60`, LDA $600A. -/
theorem test_lda_abs_second :
    stepHas ({ start [0xAD, 0x0A, 0x60] [] with a := 0x55 })
      (fun t => regs t == (0x00, 0x00, 0x00, 0xFF, 0x36, 0x0203) && t.diag.length == 1) = true := by decide

/-- spec/95_test_vectors.md 1.8: a read of `6009` is a draw. -/
theorem test_rng_read : (match step (start [0xAD, 0x09, 0x60] []) with
    | .next t => some (t.a, t.draws)
    | .fault _ | .refused _ => none) = some (Config.randomByte 0, 1) := rfl

/-- spec/95_test_vectors.md 2.12, fetch across regions: `PC=FFFF`, the operand at `0000`. -/
theorem test_fetch_wraps : stepHas ((start [] [(0xFFFF, 0xA9), (0x0000, 0x07)]).setPc 0xFFFF)
    (fun t => t.a == 0x07 && t.pc == 0x0001) = true := by decide

/-! ### Host actions -/

/-- The vectors of spec/95_test_vectors.md 2.11. -/
def interruptStart (p : Byte) (script : List HostEvent) : State :=
  { start [] [(0xFFFA, 0x00), (0xFFFB, 0xA0), (0xFFFE, 0x00), (0xFFFF, 0x90)] with
    a := 0x11, x := 0x22, y := 0x33, pc := 0x0234, p := p, host := ⟨script.map .event, .ticks⟩ }

/-- spec/95_test_vectors.md 2.11: `interrupt_request()` from `P=C3`. -/
theorem test_irq : stepHas (interruptStart 0xC3 [.interruptRequest])
    (fun t => regs t == (0x11, 0x22, 0x33, 0xFC, 0xC7, 0x9000) && byteAt t 0x01FE == 0x02 && byteAt t 0x01FD == 0x34 &&
      byteAt t 0x01FC == 0xDB) = true := by decide

/-- spec/95_test_vectors.md 2.11: masked, `P=34`. -/
theorem test_irq_masked : stepHas (interruptStart 0x34 [.interruptRequest])
    (fun t => regs t == (0x11, 0x22, 0x33, 0xFF, 0x34, 0x0234) && byteAt t 0x01FE == 0x00) = true := by decide

/-- spec/95_test_vectors.md 2.11: `non_maskable_interrupt()` from `P=34`. -/
theorem test_nmi : stepHas (interruptStart 0x34 [.nonMaskableInterrupt])
    (fun t => regs t == (0x11, 0x22, 0x33, 0xFC, 0x34, 0xA000) && byteAt t 0x01FE == 0x02 && byteAt t 0x01FD == 0x34 &&
      byteAt t 0x01FC == 0x3C) = true := by decide

/-- spec/95_test_vectors.md 1.2: `reset()` from another state, vector `1234`. -/
theorem test_reset : stepHas { start [] [(0xFFFC, 0x34), (0xFFFD, 0x12), (0x0010, 0x55)] with
    a := 0x77, x := 0x01, y := 0x02, sp := 0x12, p := 0xFF, host := ⟨[.event .reset], .ticks⟩ }
    (fun t => regs t == (0x00, 0x00, 0x00, 0xFF, 0x34, 0x1234) && byteAt t 0x0010 == 0x55) = true := by decide

/-- R66, R273: the host writes the keyboard slot, not RAM. -/
theorem test_host_keyboard : stepHas { State.reset with host := ⟨[.event (.writeKeyboard 0x41)], .ticks⟩ }
    (fun t => byteAt t 0x6002 == 0x41 && t.ram == []) = true := by decide

/-- R262: a state with `FATAL` set has no successor. -/
theorem test_fatal_stops : step (State.reset.setFatal true) = .fault .fatalStop := rfl

/-! ### The renderer's word accesses and the parameters' other values -/

/-- spec/95_test_vectors.md 1.8: `write_word(0xBEEF, 0x600F)`. -/
theorem test_write_word_latch : ((writeWord 0x600F 0xBEEF State.reset).bank.interruptId,
    byteAt (writeWord 0x600F 0xBEEF State.reset) 0x6010, (writeWord 0x600F 0xBEEF State.reset).dirty) =
    (0xEF, 0xBE, true) := by decide

/-- spec/95_test_vectors.md 1.8: `write_word(0xABCD, 0x6004)`. -/
theorem test_write_word_mouse : ((writeWord 0x6004 0xABCD State.reset).bank.mouseY,
    (writeWord 0x6004 0xABCD State.reset).bank.cartLo) = (0xCD, 0xAB) := by decide

/-- spec/95_test_vectors.md 2.4: PHP with `FORCE_MASK=30`. -/
theorem test_php_mask_30 : stepHas
    { start [0x08] [] with p := 0xC3, config := { platform with forceMask := 0x30 } }
    (fun t => byteAt t 0x01FE == 0xF3 && t.p == 0xC3 && t.sp == 0xFE) = true := by decide

/-- spec/95_test_vectors.md 2.10: RTI with `FORCE_MASK=30`. -/
theorem test_rti_mask_30 : stepHas
    { start [0x40] [(0x01FC, 0xFF), (0x01FD, 0x34), (0x01FE, 0x12)] with
      sp := 0xFC, config := { platform with forceMask := 0x30 } }
    (fun t => t.p == 0xCF && t.pc == 0x1234 && t.sp == 0xFF) = true := by decide

/-- spec/95_test_vectors.md 2.6: ROR A with `ROR_INSERT=replace`. -/
theorem test_ror_replace : stepHas
    { start [0x6A] [] with a := 0x06, config := { platform with rorInsert := .replace } }
    (fun t => t.a == 0x02 && t.p == 0x34) = true := by decide

/-- spec/95_test_vectors.md 1.7: the three bytes of an IRQ with `STACK_DISCIPLINE=postdec_preinc`. -/
theorem test_irq_postdec_preinc : stepHas
    { interruptStart 0x30 [.interruptRequest] with config := { platform with stackDiscipline := .postdecPreinc } }
    (fun t => byteAt t 0x01FF == 0x02 && byteAt t 0x01FE == 0x34 && byteAt t 0x01FD == 0x38 && t.sp == 0xFC) = true := by
  decide

/-- spec/95_test_vectors.md 2.1: `LDA ($FF,X)` with `ZP_PTR_WRAP=true`. -/
theorem test_izx_pointer_wraps : stepHas
    { start [0xA1, 0xFF] [(0x00FF, 0x34), (0x0100, 0x12), (0x0000, 0x56), (0x1234, 0x42), (0x5634, 0x99)] with
      config := { platform with zpPtrWrap := true } } (fun t => t.a == 0x99) = true := by decide

/-- spec/95_test_vectors.md 2.9: `JMP ($12FF)` with `JMP_IND_PAGE_BUG=true`. -/
theorem test_jmp_ind_page_bug : stepHas
    { start [0x6C, 0xFF, 0x12] [(0x12FF, 0x78), (0x1300, 0x56), (0x1200, 0x99)] with
      config := { platform with jmpIndPageBug := true } } (fun t => t.pc == 0x9978) = true := by decide

/-- R11, R160: the borrow convention of DEX, Carry 1 if and only if no wrap. -/
theorem test_dex_borrow :
    stepHas { start [0xCA] [] with x := 0x05, config := { platform with decIncCarry := .borrow } }
      (fun t => t.x == 0x04 && flag .C t.p) = true ∧
    stepHas { start [0xCA] [] with p := 0x35, config := { platform with decIncCarry := .borrow } }
      (fun t => t.x == 0xFF && !flag .C t.p) = true := by decide

/-- R11, R121: an opcode outside `OPCODE_SET` is a one-byte no-op that logs. -/
theorem test_step_absent_opcode : stepHas { start [0xE8] [] with config := { platform with absentOpcodes := [0xE8] } }
    (fun t => t.x == 0x00 && t.pc == 0x0201 && t.diag == [.unknownOpcode 0xE8]) = true := by decide

/-- R270: a host left free takes its actions from `Config.hostAction`, one a step. -/
theorem test_free_host : (State.reset.setHost ⟨[], .free 7⟩).nextAction = Config.hostAction 7 ∧
    (State.reset.setHost ⟨[], .free 7⟩).takeAction.nextAction = Config.hostAction 8 := ⟨rfl, rfl⟩

/-! ### Witnesses: the hypotheses of each obligation can be met -/

/-- A running machine about to store: `STA $6010`, `A=41`. -/
def storing : State := { start [0x8D, 0x10, 0x60] [(0x8000, 0xEA)] with a := 0x41 }

theorem witness_EncodedInstructionDecodesBack :
    wellFormedIn [] (.staAbs 0xFFFF) = true ∧ wellFormedIn [0xEA] .tax = true := by decide

theorem witness_DecodedBytesEncodeBack : decodeWith [] [0x8D, 0xFF, 0xFF, 0xEA] = .ok (.staAbs 0xFFFF, [0xEA]) := by decide

/-- A `tick()` that is listed, and one after the list; `OPCODE_SET` may lack an opcode that is not run. -/
theorem witness_StepRunsDecodedInstruction :
    (storing.running ∧ storing.nextAction = .tick ∧
      decodeWith storing.config.absentOpcodes (bytesAtPc storing) = .ok (.staAbs 0x6010, [])) ∧
    (storing.setHost ⟨[.tick, .event .reset], .free 0⟩).nextAction = .tick ∧
    decodeWith [0xEA] (bytesAtPc storing) = .ok (.staAbs 0x6010, []) := ⟨⟨rfl, rfl, by decide⟩, rfl, by decide⟩

theorem witness_FetchMovesPcPastBytes : (0x6008 : Word) ≠ 0x6009 ∧ (0x600A : Word) ≠ 0x6009 := by decide

theorem witness_UnknownOpcodeIsOneByteNoOp :
    (start [0x02] []).running ∧ (start [0x02] []).nextAction = .tick ∧
    decodeOpcode (start [0x02] []).config.absentOpcodes (byteAt (start [0x02] []) (start [0x02] []).pc) = none ∧
    decodeOpcode [0xEA] 0xEA = none ∧ (0xFF : Byte) ∈ undefinedOpcodes :=
  ⟨rfl, rfl, by decide, by decide, by decide⟩

/-- An instruction of each length, a branch, a return and a taken BRK. -/
theorem witness_PcAdvancesByTable :
    (State.reset.running ∧ State.reset.nextAction = .tick ∧ ∀ op ∈ [0x8D, 0xA5, 0xEA, 0xD0, 0x60, 0x00],
      (decodeWith State.reset.config.absentOpcodes (bytesAtPc (start [op] []))).toBool = true) ∧
    (start [0xFF] []).nextAction = .tick ∧
    decodeOpcode (start [0xFF] []).config.absentOpcodes (byteAt (start [0xFF] []) 0x0200) = none :=
  ⟨⟨rfl, rfl, by decide⟩, rfl, by decide⟩

/-- Both clauses, and both sides of the second: a step that sets `FATAL`, one that does not. -/
theorem witness_RunningMachineAlwaysSteps : State.reset.running ∧ (State.reset.setFatal true).fatal = true ∧
    (start [0x8D, 0x08, 0x60] []).running ∧ stepHas (start [0x8D, 0x08, 0x60] []) (fun t => t.fatal) = true ∧
    stepHas storing (fun t => !t.fatal) = true := by decide

theorem witness_FetchWordPlacementRunsIt : storing.running ∧ storing.ram.wf ∧ storing.rom.wf ∧
    decodeWith storing.config.absentOpcodes (tableBytes 16 0x05A9) = .ok (.ldaImm 0x05, [0x00]) ∧
    (storing.setPc 0x5FFE).running := by decide

/-- The ends of each range, and the addresses just outside; the ranges exclude each other. -/
theorem witness_ByteReadRouted : region 0x8000 = .rom ∧ region 0xFFFF = .rom ∧ region 0x6000 = .io ∧
    region 0x600F = .io ∧ region 0x5FFF = .ram ∧ region 0x6010 = .ram ∧ region 0x7FFF = .ram ∧ region 0x0000 = .ram := by
  decide

theorem witness_ByteWriteRouted : (0x8000 : Word).toNat = 0x8000 ∧ inFramebuffer 0x6010 = true ∧
    inFramebuffer 0x7010 = true ∧ inFramebuffer 0x600F = false ∧ inFramebuffer 0x7011 = false ∧
    inFramebuffer 0x5FFF = false := by decide

theorem witness_WordAccess : State.reset.running ∧ (0x6007 : Word) ≠ 0x6008 ∧ (0x6009 : Word) ≠ 0x6008 := by decide

theorem witness_StoredByteLoadsBack : storing.ram.wf ∧ (0x6007 : Word).toNat < 0x6008 ∧
    (0x600F ≤ (0x600F : Word).toNat ∧ (0x7FFF : Word).toNat < 0x8000) := by decide

theorem witness_RomWriteChangesNothing : dataStore (.staAbs 0x8000) storing = some 0x8000 ∧
    dataStore (.incAbs 0xFFFF) storing = some 0xFFFF ∧ 0x8000 ≤ (0x8000 : Word).toNat := by decide

theorem witness_DirtySetExactlyByWindowWrites : (0x6010 : Word) ∈ storedAddrs (.staAbs 0x6010) storing ∧
    (0x7010 : Word) ∈ storedAddrs (.incAbs 0x7010) storing ∧ storedAddrs (.ldaAbs 0x6010) storing = [] := by decide

theorem witness_DirtyClearedOnlyByHost :
    ∃ t, step ((storing.setDirty true).setHost ⟨[.event .clearDirty], .free 0⟩) = .next t ∧ t.dirty = false :=
  ⟨_, rfl, rfl⟩

theorem witness_ImagesNeverChange : (∃ t, step (start [0x8D, 0x00, 0x80] []) = .next t) ∧
    0x8000 ≤ (0x8000 : Word).toNat := ⟨⟨_, rfl⟩, by decide⟩

theorem witness_EqualContentsAreEqualData : Memory.wf [(5, 1), (7, 2)] ∧
    ∀ a, Memory.read [(5, 1), (7, 2)] a = Memory.read [(5, 1), (7, 2)] a := ⟨by decide, fun _ => rfl⟩

theorem witness_StepKeepsStoresWellFormed : storing.wf ∧ ∃ t, step storing = .next t ∧ t.ram ≠ storing.ram :=
  ⟨by decide, _, rfl, by decide⟩

theorem witness_ResetAction : (storing.setHost ⟨[.event .reset], .free 0⟩).running ∧
    (storing.setHost ⟨[.event .reset], .free 0⟩).nextAction = .event .reset ∧ (storing.setFatal true).fatal = true :=
  ⟨rfl, rfl, rfl⟩

/-- Each clause: `P.I` set and clear. -/
theorem witness_InterruptRequest : (interruptStart 0x30 [.interruptRequest]).running ∧
    (interruptStart 0x30 [.interruptRequest]).ram.wf ∧
    (interruptStart 0x30 [.interruptRequest]).nextAction = .event .interruptRequest ∧
    flag .I (interruptStart 0x34 [.interruptRequest]).p = true ∧
    flag .I (interruptStart 0x30 [.interruptRequest]).p = false := by decide

theorem witness_SecondRequestIsDropped : (interruptStart 0x30 [.interruptRequest, .interruptRequest]).running ∧
    (interruptStart 0x30 [.interruptRequest, .interruptRequest]).nextAction = .event .interruptRequest ∧
    (interruptStart 0x30 [.interruptRequest, .interruptRequest]).takeAction.nextAction = .event .interruptRequest := by
  decide

theorem witness_NonMaskableInterrupt : (interruptStart 0x34 [.nonMaskableInterrupt]).running ∧
    (interruptStart 0x34 [.nonMaskableInterrupt]).ram.wf ∧
    (interruptStart 0x34 [.nonMaskableInterrupt]).nextAction = .event .nonMaskableInterrupt := by decide

/-- `SP=01`, so that the three pushes wrap in the stack page. -/
theorem witness_BreakEntersHandler : ((storing.setSp 0x01).setP 0x00).ram.wf ∧
    flag .I ((storing.setSp 0x01).setP 0x00).p = false ∧ flag .I storing.p = true := by decide

theorem witness_HandlerReturnResumes : ((storing.setSp 0x01).setP 0x00).ram.wf ∧
    flag .I ((storing.setSp 0x01).setP 0x00).p = false ∧
    (∃ t : State, t.config = ((storing.setSp 0x01).setP 0x00).config ∧
      t.sp = (interruptRequest ((storing.setSp 0x01).setP 0x00)).sp ∧
      t.ram = (interruptRequest ((storing.setSp 0x01).setP 0x00)).ram) ∧
    (∃ t : State, t.config = storing.config ∧ t.sp = (nonMaskableInterrupt storing).sp ∧
      t.ram = (nonMaskableInterrupt storing).ram) ∧
    ∃ h, exec .brk ((storing.setSp 0x01).setP 0x00) = .next h ∧ h.sp = 0xFE :=
  ⟨by decide, by decide,
    ⟨(storing.setSp (interruptRequest ((storing.setSp 0x01).setP 0x00)).sp).setRam
      (interruptRequest ((storing.setSp 0x01).setP 0x00)).ram, rfl, rfl, rfl⟩,
    ⟨(storing.setSp (nonMaskableInterrupt storing).sp).setRam (nonMaskableInterrupt storing).ram, rfl, rfl, rfl⟩,
    _, rfl, by decide⟩

theorem witness_HostFieldWrites : ∀ e ∈ [HostEvent.writeKeyboard 1, .writeMouseX 2, .writeMouseY 3, .writeInterruptId 4,
    .clearDirty], (State.reset.setHost ⟨[.event e], .free 0⟩).running ∧
    (State.reset.setHost ⟨[.event e], .free 0⟩).nextAction = .event e := by decide

theorem witness_FatalWriteStopsMachine : dataStore (.incAbs 0x6008) storing = some 0x6008 ∧
    Flag.V ∉ flagsWritten (.incAbs 0x6008) ∧ (State.reset.setFatal true).fatal = true := by decide

theorem witness_OnlyCartDataWritesAreFatal : storing.running ∧ dataStore (.staAbs 0x6008) storing = some 0x6008 ∧
    dataStore (.staAbs 0x6007) storing ≠ some 0x6008 := by decide

theorem witness_RegistersChangeOnlyAsListed : writesA (.ldxImm 1) = false ∧ writesX (.ldaImm 1) = false ∧
    writesY (.ldaImm 1) = false ∧ writesSp (.ldaImm 1) = false ∧ setsPc (.ldaImm 1) = false := by decide

theorem witness_FlagsChangeOnlyAsListed : Flag.C ∉ flagsWritten (.ldaImm 1) ∧ Flag.N ∉ flagsWritten .txs := by decide

/-- Each hypothesis, and the slot moved by slots 5 to 7. -/
theorem witness_MemoryChangesOnlyWhereStored : (0x6011 : Word) ∉ storedAddrs (.staAbs 0x6010) storing ∧
    (0x6008 : Word) ∉ storedAddrs (.staAbs 0x6004) storing ∧ (0x6005 : Word) ∉ storedAddrs (.staAbs 0x6004) storing ∧
    (0x6006 : Word) ∉ storedAddrs (.staAbs 0x6004) storing ∧ (0x6007 : Word) ∉ storedAddrs (.staAbs 0x6004) storing ∧
    storedAddrs (.cmpAbs 0x6010) storing = [] := by decide

theorem witness_DeviceStateFrame : storedAddrs (.bitAbs 0x6009) storing = [] := by decide

theorem witness_SetZnWritesTwoFlags : Flag.C ≠ .Z ∧ Flag.C ≠ .N := by decide

theorem witness_IncrementLaw : Flag.V ≠ .C ∧ Flag.V ≠ .Z ∧ Flag.V ≠ .N := by decide

theorem witness_PushThenPull : storing.ram.wf ∧ ∃ t, exec .pha storing = .next t ∧
    ∃ t' : State, t'.config = t.config ∧ t'.sp = t.sp ∧ t'.ram = t.ram := ⟨by decide, _, rfl, _, rfl, rfl, rfl⟩

theorem witness_FlagsRoundTrip : storing.ram.wf := by decide

theorem witness_BitTest : (∃ b, MemOperand.zp 0x10 = .zp b ∧ Instr.bitZp 0x10 = .bitZp b) ∧
    (∃ w, MemOperand.abs 0xFFFF = .abs w ∧ Instr.bitAbs 0xFFFF = .bitAbs w) ∧ Flag.C ≠ .Z ∧ Flag.C ≠ .V ∧ Flag.C ≠ .N :=
  ⟨⟨_, rfl, rfl⟩, ⟨_, rfl, rfl⟩, by decide⟩

theorem witness_CallThenReturn : (storing.setSp 0x01).ram.wf ∧ ∃ t, exec (.jsr 0x1234) (storing.setSp 0x01) = .next t ∧
    ∃ t' : State, t'.config = t.config ∧ t'.sp = t.sp ∧ t'.ram = t.ram := ⟨by decide, _, rfl, _, rfl, rfl, rfl⟩

/-- Both premises of the first clause, and the premise of the last. -/
theorem witness_DecimalIsUnobservable : storing.config.forceMask.getLsbD 3 = true ∧
    (Instr.adcImm 0x01 ≠ .php ∧ Instr.adcImm 0x01 ≠ .brk) ∧ (∃ t, exec (.adcImm 0x01) storing = .next t) ∧
    (∃ t, exec .php storing = .next t) ∧ (∃ t, exec .sed storing = .next t) ∧ (∃ t, exec .cld storing = .next t) ∧
    (∃ t, exec .plp storing = .next t) ∧ ∃ t, exec .rti storing = .next t :=
  ⟨by decide, by decide, ⟨_, rfl⟩, ⟨_, rfl⟩, ⟨_, rfl⟩, ⟨_, rfl⟩, ⟨_, rfl⟩, _, rfl⟩

/-- Each value of `RNG_RANGE`. -/
theorem witness_RegisterBankTable : storing.config.rngRange = .full ∧
    { storing with config := { platform with rngRange := .below255 } }.config.rngRange = .below255 := ⟨rfl, rfl⟩

/-- Each value of `STACK_DISCIPLINE`. -/
theorem witness_StackInstructions : storing.config.stackDiscipline = .predecPostinc ∧
    { storing with config := { platform with stackDiscipline := .postdecPreinc } }.config.stackDiscipline =
      .postdecPreinc := ⟨rfl, rfl⟩

/-- Each value of `JMP_IND_PAGE_BUG`, with the pointer at the end of a page and of memory. -/
theorem witness_JumpsCallsReturns :
    (0x1300 : Word).toNat = (if storing.config.jmpIndPageBug then 0x12FF / 256 * 256 + (0x12FF + 1) % 256
      else (0x12FF + 1) % 65536) ∧
    (0x0000 : Word).toNat = (if storing.config.jmpIndPageBug then 0xFFFF / 256 * 256 + (0xFFFF + 1) % 256
      else (0xFFFF + 1) % 65536) ∧
    (0x1200 : Word).toNat = (if true then 0x12FF / 256 * 256 + (0x12FF + 1) % 256 else (0x12FF + 1) % 65536) := by decide

end Sys2Proof.Machine
end

section
/-! PROOFS. The family of spec/00_scope.md: every step keeps the parameters and the form of the byte stores (O20), and
the values of `State.reset` (O23). -/

namespace Sys2Proof.Machine

/-! ### Reset -/

/-- `reset()`, as an equation: six CPU registers, and no effect of the two reads of the vector, which is ROM (R290). -/
theorem resetCpu_eq (s : State) :
    resetCpu s =
      (((((s.setA 0x00).setX 0x00).setY 0x00).setSp 0xFF).setP 0x34).setPc (wordAt s resetVector) := by
  have hread : ∀ t : State, readWord resetVector t = (wordAt t resetVector, t) := fun t =>
    readWord_eq t (.inr (by decide)) (.inr (by decide))
  simp only [resetCpu, hread]
  simp [wordAt]

/-- A blank ROM image holds the zero RESET vector (R294). -/
theorem wordAt_reset_resetVector : wordAt State.reset resetVector = 0x0000 := by decide

/-- The state after reset is one that `reset()` leaves alone. -/
theorem resetCpu_reset : resetCpu State.reset = State.reset := by
  rw [resetCpu_eq, wordAt_reset_resetVector]
  rfl

/-- Settles O23: the fields are the literals of `State.reset`, and its `PC` is the RESET vector of the blank image. -/
theorem resetStateValues : Obligations.ResetStateValues := by
  unfold Obligations.ResetStateValues
  exact ⟨rfl, rfl, rfl, rfl, rfl, wordAt_reset_resetVector.symm, rfl, rfl, resetCpu_reset, rfl, rfl, rfl, rfl, rfl⟩

/-! ### The invariant of the stores -/

/-- From `s` to `t` the parameters stay, and the stores stay well-formed. -/
def KeepsStores (s t : State) : Prop := t.config = s.config ∧ (s.wf → t.wf)

theorem KeepsStores.trans {s t u : State} (hst : KeepsStores s t) (htu : KeepsStores t u) : KeepsStores s u :=
  ⟨htu.1.trans hst.1, fun h => htu.2 (hst.2 h)⟩

/-- Registers, bank, flags of the machine, counters and the host's sequence are free. -/
theorem KeepsStores.of_stores_eq {s t : State} (hconfig : t.config = s.config := by rfl)
    (hram : t.ram = s.ram := by rfl) (hrom : t.rom = s.rom := by rfl) (hcart : t.cart = s.cart := by rfl) :
    KeepsStores s t :=
  ⟨hconfig, fun h => State.wf_congr h hram hrom hcart⟩

theorem keepsStores_writeByte (a : Word) (v : Byte) (s : State) : KeepsStores s (writeByte a v s) :=
  ⟨writeByte_config a v s, writeByte_wf a v⟩

theorem keepsStores_afterFetches (n : Nat) (s : State) : KeepsStores s (afterFetches n s) :=
  ⟨afterFetches_config n s, afterFetches_wf n⟩

theorem ReadsOnly.keepsStores {n : Nat} {s t : State} (h : ReadsOnly n s t) : KeepsStores s t :=
  .of_stores_eq h.config h.ram h.rom h.cart

/-- Writes to RAM addresses alone keep RAM well-formed, and the images are not touched. -/
theorem StackWrites.keepsStores {w : List (Word × Byte)} {s t : State} (h : StackWrites w s t)
    (hw : ∀ c ∈ w, region c.1 = .ram) : KeepsStores s t := by
  refine ⟨h.rest.config, fun hs => State.wf_of_ram hs ?_ ?_ h.rest.rom h.rest.cart⟩
  · rw [h.ram]
    exact wf_writeAll w hs.1
  · obtain ⟨-, -, -, hwithin, -⟩ := hs
    rw [h.ram]
    exact within_writeAll w (fun c hc => ramAddress_of_region (hw c hc)) hwithin

theorem ExecEffect.keepsStores {i : Instr} {s t : State} (h : ExecEffect i s t) : KeepsStores s t := by
  unfold ExecEffect at h
  split at h
  · obtain ⟨-, v, u, hread, -, rfl⟩ := h
    exact hread.keepsStores.trans (keepsStores_writeByte _ v u)
  · obtain ⟨vs, -, hwrites⟩ := h
    exact hwrites.keepsStores fun c hc => region_stackStores (List.of_mem_zip hc).1

theorem keepsStores_exec {i : Instr} {s t : State} (h : exec i s = .next t) : KeepsStores s t := by
  obtain ⟨t', ht', heffect⟩ := exec_effect i s
  rw [ht'] at h
  cases h
  exact heffect.keepsStores

theorem keepsStores_tick {s t : State} (h : tick s = .next t) : KeepsStores s t := by
  obtain ⟨n, ⟨i, -, hexec⟩ | ⟨op, -, rfl⟩⟩ := tick_cases h
  · exact (keepsStores_afterFetches n s).trans (keepsStores_exec hexec)
  · exact (keepsStores_afterFetches n s).trans .of_stores_eq

theorem keepsStores_takeException (ret vector : Word) (set : Byte) (s : State) :
    KeepsStores s (takeException ret vector set s) := by
  refine ⟨?_, takeException_wf ret vector set⟩
  simp [takeException, readWord, readPair_snd, pushP, push16]

theorem keepsStores_hostEffect (e : HostEvent) (s : State) : KeepsStores s (hostEffect e s) := by
  cases e with
  | reset =>
    rw [hostEffect, resetCpu_eq]
    exact .of_stores_eq
  | interruptRequest =>
    simp only [hostEffect, interruptRequest]
    split
    · exact .of_stores_eq
    · exact keepsStores_takeException _ _ _ s
  | nonMaskableInterrupt => exact keepsStores_takeException _ _ _ s
  | writeKeyboard | writeMouseX | writeMouseY | writeInterruptId | clearDirty => exact .of_stores_eq

/-- Settles O20: a step is a `tick()` or an event of the host, and each keeps the stores. -/
theorem stepKeepsStoresWellFormed : Obligations.StepKeepsStoresWellFormed := by
  unfold Obligations.StepKeepsStoresWellFormed
  intro s t h
  have htake : KeepsStores s s.takeAction := .of_stores_eq
  obtain ⟨-, ⟨-, htick⟩ | ⟨e, -, rfl⟩⟩ := step_cases h
  · exact htake.trans (keepsStores_tick htick)
  · exact htake.trans (keepsStores_hostEffect e s.takeAction)

end Sys2Proof.Machine
end

section
/-! PROOFS. The family of spec/10_state.md: what each instruction may write of the CPU registers and the flags (O32,
O33), who clears `DIRTY` (O17), and the canonical form of the byte stores (O19, O21). -/

namespace Sys2Proof.Machine

/-! ### The flags a flag computation leaves -/

/-- From the flags byte `p` to `q` no flag outside `fs` changes. -/
def KeepsFlags (fs : List Flag) (p q : Byte) : Prop := ∀ f, f ∉ fs → flag f q = flag f p

theorem KeepsFlags.refl (fs : List Flag) (p : Byte) : KeepsFlags fs p p := fun _ _ => rfl

/-- All eight flags are listed: nothing is claimed. -/
theorem keepsFlags_all (p q : Byte) : KeepsFlags [.C, .Z, .I, .D, .B, .U, .V, .N] p q := by
  intro f hf
  exact absurd (by cases f <;> decide) hf

theorem keepsFlags_putFlag (f : Flag) (b : Bool) (p : Byte) : KeepsFlags [f] p (putFlag f b p) :=
  fun _ hg => flag_putFlag_ne b p (List.ne_of_not_mem_cons hg)

theorem keepsFlags_setZN (v p : Byte) : KeepsFlags [.Z, .N] p (setZN v p) := by
  intro f hf
  obtain ⟨hZ, hN⟩ : f ≠ .Z ∧ f ≠ .N := by simpa using hf
  rw [flag_setZN, if_neg hN, if_neg hZ]

theorem keepsFlags_adcFlags (a m p : Byte) : KeepsFlags [.C, .Z, .V, .N] p (adcFlags a m p) := by
  intro f hf
  obtain ⟨hC, hZ, hV, hN⟩ : f ≠ .C ∧ f ≠ .Z ∧ f ≠ .V ∧ f ≠ .N := by simpa using hf
  rw [flag_adcFlags, if_neg hN, if_neg hZ, if_neg hV, if_neg hC]

theorem keepsFlags_bitFlags (a m p : Byte) : KeepsFlags [.Z, .V, .N] p (bitFlags a m p) := by
  intro f hf
  obtain ⟨hZ, hV, hN⟩ : f ≠ .Z ∧ f ≠ .V ∧ f ≠ .N := by simpa using hf
  rw [flag_bitFlags, if_neg hN, if_neg hV, if_neg hZ]

/-- Carry and then `SetZN`: the flags of the compares, the increments and decrements, and the shifts. -/
theorem keepsFlags_setZN_putCarry (v p : Byte) (c : Bool) : KeepsFlags [.C, .Z, .N] p (setZN v (putFlag .C c p)) := by
  intro f hf
  obtain ⟨hC, hZ, hN⟩ : f ≠ .C ∧ f ≠ .Z ∧ f ≠ .N := by simpa using hf
  rw [flag_setZN, if_neg hN, if_neg hZ, flag_putFlag_ne c p hC]

/-- The flags BRK sets after its push (R237). -/
theorem keepsFlags_or_breakMask (p : Byte) : KeepsFlags [.I, .B] p (p ||| (flagMask .I ||| flagMask .B)) := by
  intro f hf
  cases f
  case I | B => exact absurd (by decide) hf
  case C | Z | D | U | V | N => simp [flag, flagBit, flagMask]

/-! ### The registers and flags an instruction leaves -/

/-- From `s` to `t` no CPU register and no flag changes that `i` is not listed as a writer of (R21, R22, R25, R126). -/
structure CpuFrame (i : Instr) (s t : State) : Prop where
  a : writesA i = false → t.a = s.a
  x : writesX i = false → t.x = s.x
  y : writesY i = false → t.y = s.y
  sp : writesSp i = false → t.sp = s.sp
  pc : setsPc i = false → t.pc = s.pc
  flags : KeepsFlags (flagsWritten i) s.p t.p

namespace CpuFrame
variable {i : Instr} {s t u : State}

theorem trans (hst : CpuFrame i s t) (htu : CpuFrame i t u) : CpuFrame i s u where
  a h := (htu.a h).trans (hst.a h)
  x h := (htu.x h).trans (hst.x h)
  y h := (htu.y h).trans (hst.y h)
  sp h := (htu.sp h).trans (hst.sp h)
  pc h := (htu.pc h).trans (hst.pc h)
  flags f hf := (htu.flags f hf).trans (hst.flags f hf)

/-- A part of an instruction that leaves every register alone. -/
theorem of_regs_eq (ha : t.a = s.a) (hx : t.x = s.x) (hy : t.y = s.y) (hsp : t.sp = s.sp) (hpc : t.pc = s.pc)
    (hp : t.p = s.p) : CpuFrame i s t :=
  ⟨fun _ => ha, fun _ => hx, fun _ => hy, fun _ => hsp, fun _ => hpc, fun f _ => congrArg (flag f) hp⟩

theorem refl (s : State) : CpuFrame i s s := of_regs_eq rfl rfl rfl rfl rfl rfl

/-! A write of one register, by an instruction listed as its writer. -/

theorem setA (h : writesA i = true) (v : Byte) : CpuFrame i s (s.setA v) where
  a h' := by simp [h] at h'
  x _ := rfl
  y _ := rfl
  sp _ := rfl
  pc _ := rfl
  flags := KeepsFlags.refl _ _

theorem setX (h : writesX i = true) (v : Byte) : CpuFrame i s (s.setX v) where
  a _ := rfl
  x h' := by simp [h] at h'
  y _ := rfl
  sp _ := rfl
  pc _ := rfl
  flags := KeepsFlags.refl _ _

theorem setY (h : writesY i = true) (v : Byte) : CpuFrame i s (s.setY v) where
  a _ := rfl
  x _ := rfl
  y h' := by simp [h] at h'
  sp _ := rfl
  pc _ := rfl
  flags := KeepsFlags.refl _ _

theorem setSp (h : writesSp i = true) (v : Byte) : CpuFrame i s (s.setSp v) where
  a _ := rfl
  x _ := rfl
  y _ := rfl
  sp h' := by simp [h] at h'
  pc _ := rfl
  flags := KeepsFlags.refl _ _

theorem setPc (h : setsPc i = true) (v : Word) : CpuFrame i s (s.setPc v) where
  a _ := rfl
  x _ := rfl
  y _ := rfl
  sp _ := rfl
  pc h' := by simp [h] at h'
  flags := KeepsFlags.refl _ _

theorem setP {q : Byte} (h : KeepsFlags (flagsWritten i) s.p q) : CpuFrame i s (s.setP q) where
  a _ := rfl
  x _ := rfl
  y _ := rfl
  sp _ := rfl
  pc _ := rfl
  flags := h

/-! The shared operations. -/

theorem afterRead (a : Word) (s : State) : CpuFrame i s (afterRead a s) :=
  of_regs_eq (by simp) (by simp) (by simp) (by simp) (by simp) (by simp)

theorem loadOperand (m : Source) (s : State) : CpuFrame i s (loadOperand m s).2 :=
  of_regs_eq (by simp) (by simp) (by simp) (by simp) (by simp) (by simp)

theorem writeByte (a : Word) (v : Byte) (s : State) : CpuFrame i s (writeByte a v s) :=
  of_regs_eq (by simp) (by simp) (by simp) (by simp) (by simp) (by simp)

theorem readJmpPointer (ptr : Word) (s : State) : CpuFrame i s (readJmpPointer ptr s).2 :=
  (afterRead ptr s).trans (afterRead _ _)

theorem push8 (h : writesSp i = true) (v : Byte) (s : State) : CpuFrame i s (push8 v s) :=
  (setSp h _).trans (writeByte _ v _)

theorem push16 (h : writesSp i = true) (w : Word) (s : State) : CpuFrame i s (push16 w s) :=
  (push8 h _ s).trans (push8 h _ _)

theorem loadA (h : writesA i = true) (hf : flagsWritten i = [.Z, .N]) (v : Byte) (s : State) :
    CpuFrame i s (loadA v s) :=
  (setA h v).trans (setP (hf ▸ keepsFlags_setZN v _))

theorem loadX (h : writesX i = true) (hf : flagsWritten i = [.Z, .N]) (v : Byte) (s : State) :
    CpuFrame i s (loadX v s) :=
  (setX h v).trans (setP (hf ▸ keepsFlags_setZN v _))

theorem loadY (h : writesY i = true) (hf : flagsWritten i = [.Z, .N]) (v : Byte) (s : State) :
    CpuFrame i s (loadY v s) :=
  (setY h v).trans (setP (hf ▸ keepsFlags_setZN v _))

theorem addWithCarry (h : writesA i = true) (hf : flagsWritten i = [.C, .Z, .V, .N]) (v : Byte) (s : State) :
    CpuFrame i s (addWithCarry v s) :=
  (setA h _).trans (setP (hf ▸ keepsFlags_adcFlags _ v _))

/-- A read-modify-write in memory changes `P` alone, and that as its function does (R119). -/
theorem modifyMem {f : Byte → Byte → Byte × Byte} (hf : ∀ v p, KeepsFlags (flagsWritten i) p (f v p).2)
    (m : MemOperand) (s : State) : CpuFrame i s (modifyMem m f s) :=
  ((afterRead _ s).trans (setP (hf _ _))).trans (writeByte _ _ _)

theorem branch (h : setsPc i = true) (cond : Bool) (off : Byte) (s : State) : CpuFrame i s (branch cond off s) := by
  unfold Machine.branch
  split
  · exact setPc h _
  · exact refl s

/-- BRK is either masked or enters the handler (R237). -/
theorem brk (s : State) : ∃ t, exec .brk s = .next t ∧ CpuFrame .brk s t := by
  refine ⟨_, rfl, ?_⟩
  split
  · exact refl s
  · rw [takeException_eq _ _ _ (by decide) (by decide)]
    have hpush : CpuFrame .brk s (pushP (Machine.push16 (s.pc + 1) s)) := (push16 rfl _ s).trans (push8 rfl _ _)
    have hp : (pushP (Machine.push16 (s.pc + 1) s)).p = s.p := by simp [pushP, Machine.push16]
    exact (hpush.trans (setPc rfl _)).trans (setP (hp ▸ keepsFlags_or_breakMask s.p))

end CpuFrame

/-- Every instruction completes, and changes no register and no flag that it is not listed as a writer of. -/
theorem exec_cpuFrame (i : Instr) (s : State) : ∃ t, exec i s = .next t ∧ CpuFrame i s t := by
  cases i
  case ldaImm | ldaZp | ldaZpx | ldaAbs | ldaAbx | ldaAby | ldaIzx | ldaIzy | andImm | andZp | andZpx | andAbs | andAbx |
      andAby | andIzx | andIzy | oraImm | oraZp | oraZpx | oraAbs | oraAbx | oraAby | oraIzx | oraIzy | eorImm | eorZp |
      eorZpx | eorAbs | eorAbx | eorAby | eorIzx | eorIzy =>
    exact ⟨_, rfl, .trans (.loadOperand _ s) (.loadA rfl rfl _ _)⟩
  case ldxImm | ldxZp | ldxZpy | ldxAbs | ldxAby =>
    exact ⟨_, rfl, .trans (.loadOperand _ s) (.loadX rfl rfl _ _)⟩
  case ldyImm | ldyZp | ldyZpx | ldyAbs | ldyAbx =>
    exact ⟨_, rfl, .trans (.loadOperand _ s) (.loadY rfl rfl _ _)⟩
  case adcImm | adcZp | adcZpx | adcAbs | adcAbx | adcAby | adcIzx | adcIzy | sbcImm | sbcZp | sbcZpx | sbcAbs | sbcAbx |
      sbcAby | sbcIzx | sbcIzy =>
    exact ⟨_, rfl, .trans (.loadOperand _ s) (.addWithCarry rfl rfl _ _)⟩
  case cmpImm | cmpZp | cmpZpx | cmpAbs | cmpAbx | cmpAby | cmpIzx | cmpIzy | cpxImm | cpxZp | cpxAbs | cpyImm | cpyZp |
      cpyAbs =>
    exact ⟨_, rfl, .trans (.loadOperand _ s) (.setP (keepsFlags_setZN_putCarry _ _ _))⟩
  case bitZp | bitAbs =>
    exact ⟨_, rfl, .trans (.loadOperand _ s) (.setP (keepsFlags_bitFlags _ _ _))⟩
  case staZp | staZpx | staAbs | staAbx | staAby | staIzx | staIzy | stxZp | stxZpy | stxAbs | styZp | styZpx | styAbs =>
    exact ⟨_, rfl, .writeByte _ _ s⟩
  case incZp | incZpx | incAbs | incAbx | decZp | decZpx | decAbs | decAbx | aslZp | aslZpx | aslAbs | aslAbx | lsrZp |
      lsrZpx | lsrAbs | lsrAbx | rolZp | rolZpx | rolAbs | rolAbx | rorZp | rorZpx | rorAbs | rorAbx =>
    refine ⟨_, rfl, CpuFrame.modifyMem ?_ _ s⟩
    exact fun _ _ => keepsFlags_setZN_putCarry _ _ _
  case aslAcc | lsrAcc | rolAcc | rorAcc =>
    exact ⟨_, rfl, .trans (.setA rfl _) (.setP (keepsFlags_setZN_putCarry _ _ _))⟩
  case inx | dex => exact ⟨_, rfl, .trans (.setX rfl _) (.setP (keepsFlags_setZN_putCarry _ _ _))⟩
  case iny | dey => exact ⟨_, rfl, .trans (.setY rfl _) (.setP (keepsFlags_setZN_putCarry _ _ _))⟩
  case txa | tya => exact ⟨_, rfl, .loadA rfl rfl _ s⟩
  case tax | tsx => exact ⟨_, rfl, .loadX rfl rfl _ s⟩
  case tay => exact ⟨_, rfl, .loadY rfl rfl _ s⟩
  case txs => exact ⟨_, rfl, .setSp rfl _⟩
  case pha | php => exact ⟨_, rfl, .push8 rfl _ s⟩
  case pla => exact ⟨_, rfl, .trans (.setSp rfl _) (.loadA rfl rfl _ _)⟩
  case plp => exact ⟨_, rfl, .trans (.setSp rfl _) (.setP (keepsFlags_all _ _))⟩
  case bpl | bmi | bvc | bvs | bcc | bcs | bne | beq => exact ⟨_, rfl, .branch rfl _ _ s⟩
  case jmpAbs => exact ⟨_, rfl, .setPc rfl _⟩
  case jmpInd => exact ⟨_, rfl, .trans (.readJmpPointer _ s) (.setPc rfl _)⟩
  case jsr => exact ⟨_, rfl, .trans (.push16 rfl _ s) (.setPc rfl _)⟩
  case rts => exact ⟨_, rfl, .trans (.setSp rfl _) (.setPc rfl _)⟩
  case clc | sec | cli | sei | clv | cld | sed => exact ⟨_, rfl, .setP (keepsFlags_putFlag _ _ _)⟩
  case brk => exact CpuFrame.brk s
  case rti =>
    refine ⟨_, rfl, ?_⟩
    rw [returnFromException_eq]
    exact .trans (.trans (.setSp rfl _) (.setP (keepsFlags_all _ _))) (.setPc rfl _)
  case nop => exact ⟨s, rfl, .refl s⟩

/-- Settles O32: the register part of every instruction's frame. -/
theorem registersChangeOnlyAsListed : Obligations.RegistersChangeOnlyAsListed := by
  unfold Obligations.RegistersChangeOnlyAsListed
  intro i s
  obtain ⟨t, ht, hframe⟩ := exec_cpuFrame i s
  exact ⟨t, ht, hframe.a, hframe.x, hframe.y, hframe.sp, hframe.pc⟩

/-- Settles O33: the flag part of every instruction's frame. -/
theorem flagsChangeOnlyAsListed : Obligations.FlagsChangeOnlyAsListed := by
  unfold Obligations.FlagsChangeOnlyAsListed
  intro i s
  obtain ⟨t, ht, hframe⟩ := exec_cpuFrame i s
  exact ⟨t, ht, hframe.flags⟩

/-! ### The dirty flag -/

/-- No instruction clears `DIRTY`: its data write may set it, everything else leaves it (R34, R54). -/
theorem exec_dirty {i : Instr} {s t : State} (h : exec i s = .next t) (hs : s.dirty = true) : t.dirty = true := by
  obtain ⟨t', ht', heffect⟩ := exec_effect i s
  rw [ht'] at h
  cases h
  unfold ExecEffect at heffect
  split at heffect
  · obtain ⟨-, v, u, hread, -, rfl⟩ := heffect
    rw [writeByte_dirty, hread.dirty, hs, Bool.or_true]
  · obtain ⟨vs, -, hwrites⟩ := heffect
    exact hwrites.rest.dirty.trans hs

theorem tick_dirty {s t : State} (h : tick s = .next t) (hs : s.dirty = true) : t.dirty = true := by
  obtain ⟨n, ⟨i, -, hexec⟩ | ⟨op, -, rfl⟩⟩ := tick_cases h
  · exact exec_dirty hexec ((afterFetches_dirty n s).trans hs)
  · exact (afterFetches_dirty n s).trans hs

theorem takeException_dirty (ret vector : Word) (set : Byte) (s : State) :
    (takeException ret vector set s).dirty = s.dirty := by
  simp [takeException, readWord, readPair_snd, pushP, push16]

/-- The one event that writes `DIRTY` is the host's own (R66, R276); reset leaves it (R291). -/
theorem hostEffect_dirty {e : HostEvent} (s : State) (he : e ≠ .clearDirty) : (hostEffect e s).dirty = s.dirty := by
  cases e with
  | clearDirty => exact absurd rfl he
  | reset =>
    rw [hostEffect, resetCpu_eq]
    rfl
  | interruptRequest =>
    simp only [hostEffect, interruptRequest]
    split
    · rfl
    · exact takeException_dirty _ _ _ s
  | nonMaskableInterrupt => exact takeException_dirty _ _ _ s
  | writeKeyboard | writeMouseX | writeMouseY | writeInterruptId => rfl

/-- Settles O17: a `tick()` keeps a set `DIRTY`, and so does every event but `DIRTY <- false`. -/
theorem dirtyClearedOnlyByHost : Obligations.DirtyClearedOnlyByHost := by
  unfold Obligations.DirtyClearedOnlyByHost
  intro s t hstep hs ht
  obtain ⟨-, ⟨-, htick⟩ | ⟨e, haction, rfl⟩⟩ := step_cases hstep
  · rw [tick_dirty htick hs] at ht
    cases ht
  · by_cases he : e = .clearDirty
    · rw [haction, he]
    · rw [hostEffect_dirty _ he, State.takeAction_dirty, hs] at ht
      cases ht

/-! ### The canonical form -/

/-- A store whose entries all lie above an address reads there as unlisted. -/
theorem Memory.read_eq_unlistedByte_of_lt {m : Memory} {a : Nat} (h : ∀ c ∈ m, a < c.1) :
    m.read a = unlistedByte := by
  induction m with
  | nil => rfl
  | cons c m ih =>
    have hc : a < c.1 := h c List.mem_cons_self
    rw [Memory.read, if_neg (by omega)]
    exact ih fun d hd => h d (List.mem_cons_of_mem _ hd)

theorem Memory.read_cons_same (k : Nat) (u : Byte) (m : Memory) : Memory.read ((k, u) :: m) k = u := by
  rw [Memory.read, if_pos rfl]

theorem Memory.read_cons_ne {k a : Nat} (u : Byte) (m : Memory) (h : k ≠ a) :
    Memory.read ((k, u) :: m) a = m.read a := by
  rw [Memory.read, if_neg h]

/-- The canonical form, entry by entry. -/
theorem Memory.wf_cons {k : Nat} {u : Byte} {m : Memory} :
    Memory.wf ((k, u) :: m) ↔ (∀ c ∈ m, k < c.1) ∧ u ≠ unlistedByte ∧ m.wf := by
  simp only [Memory.wf, List.pairwise_cons, List.forall_mem_cons]
  tauto

/-- What is listed at the head of one store is listed, at its address or before, in every store with the same
contents. -/
theorem Memory.exists_le_of_read_eq {k : Nat} {u : Byte} {m n : Memory} (hu : u ≠ unlistedByte)
    (h : ∀ a, Memory.read ((k, u) :: m) a = n.read a) : ∃ c ∈ n, c.1 ≤ k := by
  by_contra hnone
  have hlt : ∀ c ∈ n, k < c.1 := fun c hc => Nat.lt_of_not_le fun hle => hnone ⟨c, hc, hle⟩
  have hread := h k
  rw [Memory.read_cons_same, Memory.read_eq_unlistedByte_of_lt hlt] at hread
  exact hu hread

/-- In a store with the same contents that rises from its head, the head comes no later. -/
theorem Memory.head_le_of_read_eq {k l : Nat} {u v : Byte} {m n : Memory} (hu : u ≠ unlistedByte)
    (hn : ∀ c ∈ n, l < c.1) (h : ∀ a, Memory.read ((k, u) :: m) a = Memory.read ((l, v) :: n) a) : l ≤ k := by
  obtain ⟨c, hc, hck⟩ := Memory.exists_le_of_read_eq hu h
  rcases List.mem_cons.1 hc with rfl | hc
  · exact hck
  · exact (Nat.le_of_lt (hn c hc)).trans hck

/-- Settles O19: by induction on the two lists; the heads agree, and so do the tails' contents. -/
theorem equalContentsAreEqualData : Obligations.EqualContentsAreEqualData := by
  unfold Obligations.EqualContentsAreEqualData
  intro m n hm hn h
  induction m generalizing n with
  | nil =>
    cases n with
    | nil => rfl
    | cons d n =>
      obtain ⟨-, hv, -⟩ := Memory.wf_cons.1 hn
      obtain ⟨c, hc, -⟩ := Memory.exists_le_of_read_eq hv fun a => (h a).symm
      cases hc
  | cons c m ih =>
    obtain ⟨k, u⟩ := c
    obtain ⟨hkm, hu, hmtail⟩ := Memory.wf_cons.1 hm
    cases n with
    | nil =>
      obtain ⟨c, hc, -⟩ := Memory.exists_le_of_read_eq hu h
      cases hc
    | cons d n =>
      obtain ⟨l, v⟩ := d
      obtain ⟨hln, hv, hntail⟩ := Memory.wf_cons.1 hn
      obtain rfl : k = l := Nat.le_antisymm
        (Memory.head_le_of_read_eq hv hkm fun a => (h a).symm) (Memory.head_le_of_read_eq hu hln h)
      obtain rfl : u = v := by
        have hk := h k
        rwa [Memory.read_cons_same, Memory.read_cons_same] at hk
      have htail : ∀ a, Memory.read m a = Memory.read n a := by
        intro a
        by_cases ha : k = a
        · subst ha
          rw [Memory.read_eq_unlistedByte_of_lt hkm, Memory.read_eq_unlistedByte_of_lt hln]
        · have hread := h a
          rwa [Memory.read_cons_ne _ _ ha, Memory.read_cons_ne _ _ ha] at hread
      rw [ih n hmtail hntail htail]

/-- Settles O21: the stores of `State.reset` are canonical, and being empty they list no address out of range. -/
theorem resetStoresWellFormed : Obligations.ResetStoresWellFormed := by
  unfold Obligations.ResetStoresWellFormed
  obtain ⟨hram, hrom, hcart⟩ := reset_ram_wf
  have hnone : ∀ p : Nat → Bool, Memory.within p [] := fun p => List.forall_mem_nil _
  exact ⟨⟨hram, hrom, hcart, hnone _, hnone _, hnone _⟩, rfl⟩

end Sys2Proof.Machine
end

section
/-! PROOFS. The family of spec/20_memory.md: the router and the register bank (O10, O11, O12), word accesses (O13), what
a store leaves to be read (O14, O15), and what an instruction changes outside the CPU registers (O16, O18, O34, O35). -/

namespace Sys2Proof.Machine

/-! ### The router, region by region -/

theorem byteAt_io {s : State} {a : Word} (h : region a = .io) : byteAt s a = regRead (slotOf a) s := by
  simp only [byteAt, h]

theorem afterRead_io {s : State} {a : Word} (h : region a = .io) : afterRead a s = afterRegRead (slotOf a) s := by
  simp only [afterRead, h]

theorem writeByte_at_rom {a : Word} (v : Byte) (s : State) (h : region a = .rom) :
    writeByte a v s = logDiag (.romWrite a) s := by
  simp only [writeByte, h]

theorem writeByte_at_io {a : Word} (v : Byte) (s : State) (h : region a = .io) :
    writeByte a v s = regWrite (slotOf a) v s := by
  simp only [writeByte, h]

theorem writeByte_at_ram {a : Word} (v : Byte) (s : State) (h : region a = .ram) (hf : inFramebuffer a = false) :
    writeByte a v s = s.setRam (s.ram.write a.toNat v) := by
  simp only [writeByte, h, hf, Bool.false_eq_true, if_false]

theorem writeByte_at_framebuffer {a : Word} (v : Byte) (s : State) (hf : inFramebuffer a = true) :
    writeByte a v s = (s.setRam (s.ram.write a.toNat v)).setDirty true := by
  simp only [writeByte, inFramebuffer_ram hf, hf, if_true]

theorem inFramebuffer_iff {a : Word} : inFramebuffer a = true ↔ 0x6010 ≤ a.toNat ∧ a.toNat ≤ 0x7010 := by
  rw [inFramebuffer, Bool.and_eq_true, decide_eq_true_eq, decide_eq_true_eq]

/-- A read changes the draw counter and the diagnostics at most (R85). -/
theorem afterRead_eq_setDraws_setDiag (a : Word) (s : State) :
    afterRead a s = (s.setDraws (afterRead a s).draws).setDiag (afterRead a s).diag := by
  rcases afterRead_cases a s with h | ⟨-, h⟩ | ⟨-, -, h⟩ <;> rw [h] <;> rfl

/-- A byte write emits one diagnostic at most (R55, R80, R81). -/
theorem writeByte_diag (a : Word) (v : Byte) (s : State) :
    ∃ l, (writeByte a v s).diag = l ++ s.diag ∧ l.length ≤ 1 := by
  rcases writeByte_cases a v s with ⟨d, h⟩ | ⟨-, -, b, h⟩ | ⟨-, h⟩ | ⟨-, h⟩ <;> rw [h]
  · exact ⟨[d], rfl, le_rfl⟩
  · exact ⟨[], rfl, zero_le_one⟩
  · exact ⟨[], rfl, zero_le_one⟩
  · exact ⟨[], by split <;> rfl, zero_le_one⟩

/-- Settles O10: each clause is the router's branch for the region its range of addresses is. -/
theorem byteReadRouted : Obligations.ByteReadRouted := by
  unfold Obligations.ByteReadRouted
  intro s a
  refine ⟨rfl, fun h => byteAt_rom (region_eq_rom.2 h), fun h => byteAt_io (region_eq_io.2 h), fun h => ?_, fun h => ?_,
    fun h => afterRead_io (region_eq_io.2 h), afterRead_eq_setDraws_setDiag a s⟩
  · have hram : region a = .ram := region_eq_ram.2 (by omega)
    exact byteAt_ram hram
  · exact afterRead_eq_self s (by omega)

/-- Settles O11: RAM is split at the bounds of the framebuffer window. -/
theorem byteWriteRouted : Obligations.ByteWriteRouted := by
  unfold Obligations.ByteWriteRouted
  intro s a v
  refine ⟨fun h => writeByte_at_rom v s (region_eq_rom.2 h), fun h => writeByte_at_io v s (region_eq_io.2 h),
    fun h => writeByte_at_framebuffer v s (inFramebuffer_iff.2 h), fun h => ?_⟩
  have hram : region a = .ram := region_eq_ram.2 (by omega)
  have hout : inFramebuffer a = false := by
    rw [← Bool.not_eq_true, inFramebuffer_iff]
    omega
  exact writeByte_at_ram v s hram hout

/-! ### The register bank -/

/-- The cartridge pointer as a number (R76). -/
theorem toNat_cartPointer (b : IoBank) :
    (cartPointer b).toNat = b.cartHi.toNat * 65536 + b.cartMid.toNat * 256 + b.cartLo.toNat := by
  have hword : (b.cartHi ++ b.cartMid).toNat = b.cartHi.toNat * 256 + b.cartMid.toNat := toNat_mkWord _ _
  rw [cartPointer, BitVec.toNat_append, Nat.shiftLeft_eq, Nat.mul_comm, ← Nat.two_pow_add_eq_or_of_lt b.cartLo.isLt,
    hword]
  omega

/-- The narrower range of `RNG_RANGE` leaves `0xFF` out (R11). -/
theorem drawIn_below255_ne (v : Byte) : drawIn .below255 v ≠ 0xFF := by
  simp only [drawIn]
  split
  · decide
  · assumption

/-- Settles O12: the slots are numerals, so each clause is a branch of the dispatch; the cartridge pointer and the range
of a draw are the two that compute. -/
theorem registerBankTable : Obligations.RegisterBankTable := by
  unfold Obligations.RegisterBankTable
  intro s v
  refine ⟨rfl, ?_, ?_, ?_, ?_, rfl, ?_, rfl, rfl, rfl, rfl, rfl, rfl, rfl, rfl, rfl, rfl, rfl⟩
  · rw [← toNat_cartPointer]
    rfl
  · simp [afterRegRead]
  · intro hfull
    rw [regRead, drawByte, hfull, drawIn]
  · intro hbelow
    rw [regRead, drawByte, hbelow]
    exact drawIn_below255_ne _
  · simp [regRead, afterRegRead, regWrite, logDiag]

/-! ### Word accesses -/

/-- The value of a word read (R61): reading the low byte first does not disturb the high one. -/
theorem toNat_readWord (a : Word) (s : State) :
    (readWord a s).1.toNat = (byteAt s (a + 1)).toNat * 256 + (byteAt s a).toNat := by
  have hhi : byteAt (afterRead a s) (a + 1) = byteAt s (a + 1) := by
    apply byteAt_afterRead
    rintro hrng rfl
    exact absurd hrng (by decide)
  rw [readWord, readPair, toNat_mkWord, hhi]

/-- A word write in a machine that runs is two byte writes, unless the first is Fatal (R62, R78). -/
theorem writeWord_of_running {a : Word} (w : Word) {s : State} (hs : s.running) (ha : a ≠ 0x6008) :
    writeWord a w s = writeByte (a + 1) (hiByte w) (writeByte a (loByte w) s) := by
  have hfatal : (writeByte a (loByte w) s).fatal = false := by rw [writeByte_fatal, decide_eq_false ha, hs]; rfl
  simp only [writeWord, hfatal, Bool.false_eq_true, if_false]

/-- Settles O13: the general clauses are `toNat_readWord` and `writeWord_of_running`; in the others the router
is run at two numerals. -/
theorem wordAccess : Obligations.WordAccess := by
  unfold Obligations.WordAccess
  intro s a w
  refine ⟨⟨toNat_readWord a s, readPair_snd a (a + 1) s⟩, fun hs ha => writeWord_of_running w hs ha, rfl, fun hs => ?_,
    toNat_readWord _ s, fun hs => ?_, toNat_readWord _ s, fun hs => ?_, toNat_readWord _ s, fun hs => ?_⟩
  all_goals
    rw [writeWord_of_running w hs (by decide)]
    rfl

/-! ### A store, then a load -/

/-- Settles O14: the address is no slot that drops a write, and reading it back has no effect. -/
theorem storedByteLoadsBack : Obligations.StoredByteLoadsBack := by
  unfold Obligations.StoredByteLoadsBack
  intro s addr hw haddr
  have hstored : byteAt (writeByte addr s.a s) addr = s.a := by
    rw [byteAt_writeByte_same addr s.a s hw]
    cases hr : region addr with
    | ram => rfl
    | rom =>
      rw [region_eq_rom] at hr
      omega
    | io =>
      have hslot := slotOf_io hr
      rw [region_eq_io] at hr
      exact if_pos (by omega)
  have hread : ∀ t, afterRead addr t = t := fun t => afterRead_eq_self t (by omega)
  refine ⟨_, _, rfl, rfl, hstored, ?_, ?_, ?_⟩
  · exact loadOperand_ram (.mem (.abs addr)) _
  · exact loadOperand_bank (.mem (.abs addr)) _
  · show byteAt (loadX _ (afterRead addr (writeByte addr s.a s))) addr = s.a
    rw [hread, loadX, byteAt_setP, byteAt_setX, hstored]

/-! ### The data write of an instruction -/

/-- An instruction with a data write is that one byte write (R92), after the read at the same address and the flags when
it is a read-modify-write (R119). -/
theorem exec_of_dataStore {i : Instr} {s : State} {a : Word} (h : dataStore i s = some a) :
    ∃ v, exec i s = .next (writeByte a v s) ∨ ∃ p, exec i s = .next (writeByte a v ((afterRead a s).setP p)) := by
  cases i
  case staZp | staZpx | staAbs | staAbx | staAby | staIzx | staIzy | stxZp | stxZpy | stxAbs | styZp | styZpx | styAbs =>
    cases h
    exact ⟨_, .inl rfl⟩
  case incZp | incZpx | incAbs | incAbx | decZp | decZpx | decAbs | decAbx | aslZp | aslZpx | aslAbs | aslAbx | lsrZp |
      lsrZpx | lsrAbs | lsrAbx | rolZp | rolZpx | rolAbs | rolAbx | rorZp | rorZpx | rorAbs | rorAbx =>
    cases h
    exact ⟨_, .inr ⟨_, congrArg Host.Outcome.next (modifyMem_eq _ _ s)⟩⟩
  all_goals cases h

/-- In ROM the data write is a diagnostic (R55), whatever the form: the read before it has no effect. -/
theorem exec_of_dataStore_rom {i : Instr} {s : State} {a : Word} (h : dataStore i s = some a) (ha : region a = .rom) :
    ∃ p, exec i s = .next (logDiag (.romWrite a) (s.setP p)) := by
  have hread : afterRead a s = s := afterRead_eq_self s (.inr (by have := region_eq_rom.1 ha; omega))
  obtain ⟨v, hexec | ⟨p, hexec⟩⟩ := exec_of_dataStore h
  · exact ⟨s.p, by rw [hexec, writeByte_at_rom v s ha, State.setP_same]⟩
  · exact ⟨p, by rw [hexec, hread, writeByte_at_rom v _ ha]⟩

/-- Settles O15: such an instruction adds its diagnostic and may change `P`. -/
theorem romWriteChangesNothing : Obligations.RomWriteChangesNothing := by
  unfold Obligations.RomWriteChangesNothing
  refine ⟨fun s a ha => byteAt_rom (region_eq_rom.2 ha), fun i s a h ha => ?_⟩
  obtain ⟨p, hexec⟩ := exec_of_dataStore_rom h (region_eq_rom.2 ha)
  refine ⟨_, hexec, rfl, rfl, rfl, rfl, rfl, rfl, ?_, rfl, rfl⟩
  rw [logDiag, byteAt_setDiag, byteAt_setP]

/-! ### What any instruction stores -/

/-- What an instruction does outside the CPU registers, by the addresses it stores to: one data write after at most one
read, or stack writes alone. -/
theorem ExecEffect.cases {i : Instr} {s t : State} (h : ExecEffect i s t) :
    (∃ a v u, storedAddrs i s = [a] ∧ ReadsOnly 1 s u ∧ t = writeByte a v u) ∨
      storedAddrs i s = stackStores i s ∧ ∃ vs, StackWrites ((stackStores i s).zip vs) s t := by
  unfold ExecEffect at h
  split at h
  · rename_i a ha
    obtain ⟨hstack, v, u, hread, -, ht⟩ := h
    exact .inl ⟨a, v, u, by rw [storedAddrs, ha, hstack]; rfl, hread, ht⟩
  · rename_i ha
    obtain ⟨vs, -, hwrites⟩ := h
    exact .inr ⟨by rw [storedAddrs, ha]; rfl, vs, hwrites⟩

/-- The stack writes are in the stack page (R92), which the dirty flag does not watch. -/
theorem inFramebuffer_stackStores {i : Instr} {s : State} {a : Word} (h : a ∈ stackStores i s) :
    inFramebuffer a = false := by
  have hpage : ∀ b, inFramebuffer (stackAddr b) = false := by decide
  cases i
  case pha | php =>
    obtain rfl := List.mem_singleton.1 h
    exact hpage _
  case jsr =>
    simp only [stackStores, List.mem_cons, List.not_mem_nil, or_false] at h
    rcases h with rfl | rfl <;> exact hpage _
  case brk =>
    simp only [stackStores] at h
    split at h
    · cases h
    · simp only [List.mem_cons, List.not_mem_nil, or_false] at h
      rcases h with rfl | rfl | rfl <;> exact hpage _
  all_goals cases h

/-- Settles O16: a data write sets `DIRTY` exactly in the window, and stack writes leave it. -/
theorem dirtySetExactlyByWindowWrites : Obligations.DirtySetExactlyByWindowWrites := by
  unfold Obligations.DirtySetExactlyByWindowWrites
  intro i s
  obtain ⟨t, ht, heffect⟩ := exec_effect i s
  refine ⟨t, ht, ?_⟩
  simp only [← inFramebuffer_iff]
  rcases heffect.cases with ⟨a, v, u, haddrs, hread, rfl⟩ | ⟨haddrs, vs, hwrites⟩
  · rw [haddrs, writeByte_dirty, hread.dirty, Bool.or_eq_true, or_comm]
    simp only [List.mem_singleton, exists_eq_left]
  · have hnone : ¬ ∃ a ∈ storedAddrs i s, inFramebuffer a = true := by
      rintro ⟨a, ha, hf⟩
      rw [haddrs] at ha
      rw [inFramebuffer_stackStores ha] at hf
      cases hf
    have hdirty : t.dirty = s.dirty := hwrites.rest.dirty
    rw [hdirty, or_iff_left hnone]

/-- A read leaves every byte but the random source as it is. -/
theorem ReadsOnly.byteAt_eq {n : Nat} {s t : State} (h : ReadsOnly n s t) {b : Word} (hb : b ≠ 0x6009) :
    byteAt t b = byteAt s b :=
  byteAt_congr h.ram h.rom h.cart h.bank h.config fun h9 => absurd h9 hb

/-- Stack writes leave every byte elsewhere as it is, but the random source. -/
theorem StackWrites.byteAt_eq {w : List (Word × Byte)} {s t : State} (h : StackWrites w s t) {b : Word}
    (hw : ∀ c ∈ w, c.1 ≠ b) (hb : b ≠ 0x6009) : byteAt t b = byteAt s b := by
  cases hr : region b with
  | ram =>
    have hread : (writeAll s.ram w).read b.toNat = s.ram.read b.toNat :=
      read_writeAll_ne s.ram w fun c hc e => hw c hc (BitVec.eq_of_toNat_eq e)
    rw [byteAt_ram hr, byteAt_ram hr, h.ram, hread]
  | rom =>
    have hrom : t.rom = s.rom := h.rest.rom
    rw [byteAt_rom hr, byteAt_rom hr, hrom]
  | io =>
    have hram : byteAt (t.setRam s.ram) b = byteAt t b := by rw [byteAt_io hr, byteAt_io hr]; rfl
    rw [← hram, h.rest.byteAt_eq hb]

/-- Settles O34: by the two kinds of store, each of which leaves what is at another address. -/
theorem memoryChangesOnlyWhereStored : Obligations.MemoryChangesOnlyWhereStored := by
  unfold Obligations.MemoryChangesOnlyWhereStored
  intro i s
  obtain ⟨t, ht, heffect⟩ := exec_effect i s
  refine ⟨t, ht, ?_⟩
  rcases heffect.cases with ⟨a, v, u, haddrs, hread, rfl⟩ | ⟨haddrs, vs, hwrites⟩
  · rw [haddrs]
    simp only [List.mem_singleton]
    refine ⟨fun b hba hb9 hpointer => ?_, fun hnil => absurd hnil (List.cons_ne_nil a [])⟩
    have hwrite : byteAt (writeByte a v u) b = byteAt u b := by
      refine byteAt_writeByte_ne v u hba fun hb8 => ?_
      obtain ⟨h5, h6, h7⟩ := hpointer hb8
      exact ⟨Ne.symm h5, Ne.symm h6, Ne.symm h7⟩
    rw [hwrite, hread.byteAt_eq hb9]
  · rw [haddrs]
    refine ⟨fun b hb hb9 _ => hwrites.byteAt_eq (fun c hc e => hb (e ▸ (List.of_mem_zip hc).1)) hb9, fun hnil => ?_⟩
    rw [hnil] at hwrites
    exact ⟨hwrites.ram, hwrites.rest.bank⟩

/-- Settles O35: a data write adds at most one diagnostic to that of its read; stack writes come with two reads' effects
at most. -/
theorem deviceStateFrame : Obligations.DeviceStateFrame := by
  unfold Obligations.DeviceStateFrame
  intro i s
  obtain ⟨t, ht, heffect⟩ := exec_effect i s
  refine ⟨t, ht, ?_⟩
  rcases heffect.cases with ⟨a, v, u, haddrs, hread, rfl⟩ | ⟨-, vs, hwrites⟩
  · obtain ⟨k, hk, hklen⟩ := hread.diag
    obtain ⟨l, hl, hllen⟩ := writeByte_diag a v u
    rw [writeByte_rom, writeByte_cart, writeByte_host, writeByte_config, writeByte_draws, haddrs]
    refine ⟨hread.rom, hread.cart, hread.host, hread.config, hread.draws, ⟨l ++ k, ?_, ?_⟩,
      fun hnil => absurd hnil (List.cons_ne_nil a [])⟩
    · rw [hl, hk, List.append_assoc]
    · rw [List.length_append]
      omega
  · obtain ⟨hconfig, -, hrom, hcart, -, hdirty, hfatal, hhost, hdraws, hdiag⟩ := hwrites.rest
    exact ⟨hrom, hcart, hhost, hconfig, hdraws, hdiag, fun _ => ⟨hdirty, hfatal⟩⟩

/-! ### The images -/

/-- From `s` to `t` the two images stay (R67, R33). -/
def KeepsImages (s t : State) : Prop := t.rom = s.rom ∧ t.cart = s.cart

theorem KeepsImages.trans {s t u : State} (hst : KeepsImages s t) (htu : KeepsImages t u) : KeepsImages s u :=
  ⟨htu.1.trans hst.1, htu.2.trans hst.2⟩

theorem keepsImages_afterFetches (n : Nat) (s : State) : KeepsImages s (afterFetches n s) :=
  ⟨afterFetches_rom n s, afterFetches_cart n s⟩

theorem keepsImages_exec {i : Instr} {s t : State} (h : exec i s = .next t) : KeepsImages s t := by
  obtain ⟨t', ht', hrom, hcart, -⟩ := deviceStateFrame i s
  rw [ht'] at h
  cases h
  exact ⟨hrom, hcart⟩

theorem keepsImages_tick {s t : State} (h : tick s = .next t) : KeepsImages s t := by
  obtain ⟨n, ⟨i, -, hexec⟩ | ⟨op, -, rfl⟩⟩ := tick_cases h
  · exact (keepsImages_afterFetches n s).trans (keepsImages_exec hexec)
  · exact keepsImages_afterFetches n s

theorem keepsImages_takeException (ret vector : Word) (set : Byte) (s : State) :
    KeepsImages s (takeException ret vector set s) := by
  constructor <;> simp [takeException, readWord, readPair_snd, pushP, push16]

theorem keepsImages_hostEffect (e : HostEvent) (s : State) : KeepsImages s (hostEffect e s) := by
  cases e with
  | reset =>
    rw [hostEffect, resetCpu_eq]
    exact ⟨rfl, rfl⟩
  | interruptRequest =>
    simp only [hostEffect, interruptRequest]
    split
    · exact ⟨rfl, rfl⟩
    · exact keepsImages_takeException _ _ _ s
  | nonMaskableInterrupt => exact keepsImages_takeException _ _ _ s
  | writeKeyboard | writeMouseX | writeMouseY | writeInterruptId | clearDirty => exact ⟨rfl, rfl⟩

theorem keepsImages_step {s t : State} (h : step s = .next t) : KeepsImages s t := by
  have htake : KeepsImages s s.takeAction := ⟨rfl, rfl⟩
  obtain ⟨-, ⟨-, htick⟩ | ⟨e, -, rfl⟩⟩ := step_cases h
  · exact htake.trans (keepsImages_tick htick)
  · exact htake.trans (keepsImages_hostEffect e s.takeAction)

/-- Settles O18: a step keeps the images, and a ROM address reads the ROM image alone. -/
theorem imagesNeverChange : Obligations.ImagesNeverChange := by
  unfold Obligations.ImagesNeverChange
  intro s t h
  obtain ⟨hrom, hcart⟩ := keepsImages_step h
  refine ⟨hrom, hcart, fun a ha => ?_⟩
  rw [byteAt_rom (region_eq_rom.2 ha), byteAt_rom (region_eq_rom.2 ha), hrom]

end Sys2Proof.Machine
end

section
/-! PROOFS. The family of spec/30_encoding.md: decode and encode agree (O1, O2, O3), what a fetch does (O5), what a step
on a decoded instruction or an unknown opcode is (O4, O6, O7, O9), and the effective addresses (O36). -/

namespace Sys2Proof.Machine

/-! ### Decode and encode -/

/-- Settles O2: the grid has, at the opcode of each instruction's encoding, the format of that encoding. -/
theorem encodedInstructionDecodesBack : Obligations.EncodedInstructionDecodesBack := by
  unfold Obligations.EncodedInstructionDecodesBack
  intro absent i
  suffices hstatement : Laws.Encoding.Statement i from hstatement absent
  cases i
  case tax | tay | txa | tya | tsx | txs | inx | iny | dex | dey | pha | pla | php | plp | aslAcc | lsrAcc | rolAcc |
      rorAcc | rts | clc | sec | cli | sei | clv | cld | sed | brk | rti | nop =>
    exact Laws.Encoding.ofImplied rfl rfl
  case ldaImm | ldaZp | ldaZpx | ldaIzx | ldaIzy | ldxImm | ldxZp | ldxZpy | ldyImm | ldyZp | ldyZpx | staZp | staZpx |
      staIzx | staIzy | stxZp | stxZpy | styZp | styZpx | incZp | incZpx | decZp | decZpx | andImm | andZp | andZpx |
      andIzx | andIzy | oraImm | oraZp | oraZpx | oraIzx | oraIzy | eorImm | eorZp | eorZpx | eorIzx | eorIzy | bitZp |
      adcImm | adcZp | adcZpx | adcIzx | adcIzy | sbcImm | sbcZp | sbcZpx | sbcIzx | sbcIzy | aslZp | aslZpx | lsrZp |
      lsrZpx | rolZp | rolZpx | rorZp | rorZpx | cmpImm | cmpZp | cmpZpx | cmpIzx | cmpIzy | cpxImm | cpxZp | cpyImm |
      cpyZp | bpl | bmi | bvc | bvs | bcc | bcs | bne | beq =>
    exact Laws.Encoding.ofByte rfl rfl rfl
  case ldaAbs | ldaAbx | ldaAby | ldxAbs | ldxAby | ldyAbs | ldyAbx | staAbs | staAbx | staAby | stxAbs | styAbs |
      incAbs | incAbx | decAbs | decAbx | andAbs | andAbx | andAby | oraAbs | oraAbx | oraAby | eorAbs | eorAbx |
      eorAby | bitAbs | adcAbs | adcAbx | adcAby | sbcAbs | sbcAbx | sbcAby | aslAbs | aslAbx | lsrAbs | lsrAbx | rolAbs |
      rolAbx | rorAbs | rorAbx | cmpAbs | cmpAbx | cmpAby | cpxAbs | cpyAbs | jmpAbs | jmpInd | jsr =>
    exact Laws.Encoding.ofWord rfl rfl rfl

/-- A byte is its high nibble, which is its row of the grid, and its low nibble, its column (R120). -/
theorem eq_ofNat_nibbles {op : Byte} {hi lo : Nat} (hhi : op.toNat / 16 = hi) (hlo : op.toNat % 16 = lo) :
    op = BitVec.ofNat 8 (hi * 16 + lo) := by
  rw [← hhi, ← hlo, Nat.div_add_mod' op.toNat 16, BitVec.ofNat_toNat, BitVec.setWidth_eq]

/-- Every instruction a format makes is encoded with this opcode and its operand in that format (R100). -/
def FormEncodesAs (op : Byte) : Form → Prop
  | .implied i => encode i = encode0 op
  | .byte f => ∀ b, encode (f b) = encode1 op b
  | .word f => ∀ w, encode (f w) = encode2 op w

/-- The grid and the list by mnemonic of R120 agree: by row, then by column. -/
theorem grid_formEncodesAs {op : Byte} {f : Form} (h : grid op = some f) : FormEncodesAs op f := by
  simp only [grid] at h
  split at h
  case h_17 => cases h
  all_goals
    rename_i hrow
    simp only [gridRow0, gridRow1, gridRow2, gridRow3, gridRow4, gridRow5, gridRow6, gridRow7, gridRow8, gridRow9,
      gridRowA, gridRowB, gridRowC, gridRowD, gridRowE, gridRowF] at h
    split at h <;> cases h <;> rename_i hcolumn <;> rw [eq_ofNat_nibbles hrow hcolumn]
  all_goals
    dsimp only [FormEncodesAs]
    intros
    rfl

theorem encode2_append (op hi lo : Byte) : encode2 op (hi ++ lo) = [op, lo, hi] :=
  congrArg₂ (fun l h => [op, l, h]) (loByte_mkWord hi lo) (hiByte_mkWord hi lo)

/-- The opcode set takes rows out of the grid and changes none (R11, R121). -/
theorem decodeOpcode_eq_some {absent : List Byte} {op : Byte} {f : Form} :
    decodeOpcode absent op = some f ↔ absent.contains op = false ∧ grid op = some f := by
  unfold decodeOpcode
  split <;> simp_all

theorem decodeOpcode_eq_none {absent : List Byte} {op : Byte} :
    decodeOpcode absent op = none ↔ grid op = none ∨ op ∈ absent := by
  unfold decodeOpcode
  split <;> simp_all

/-- Bytes that decode are an opcode byte of the grid, the operand bytes of its format, low byte first, and the rest. -/
theorem decodeWith_eq_ok {absent bytes : List Byte} {i : Instr} {rest : List Byte}
    (h : decodeWith absent bytes = .ok (i, rest)) :
    ∃ op f, decodeOpcode absent op = some f ∧
      ((f = .implied i ∧ bytes = op :: rest) ∨
       (∃ g b, f = .byte g ∧ g b = i ∧ bytes = op :: b :: rest) ∨
       ∃ g lo hi, f = .word g ∧ g (hi ++ lo) = i ∧ bytes = op :: lo :: hi :: rest) := by
  unfold decodeWith at h
  split at h
  · cases h
  · rename_i op tail
    refine ⟨op, ?_⟩
    split at h <;> cases h
    case h_2 hform => exact ⟨_, hform, .inl ⟨rfl, rfl⟩⟩
    case h_3 g b hform => exact ⟨_, hform, .inr (.inl ⟨g, b, rfl, rfl, rfl⟩)⟩
    case h_4 g lo hi hform => exact ⟨_, hform, .inr (.inr ⟨g, lo, hi, rfl, rfl, rfl⟩)⟩

/-- Settles O3: the operand bytes a format reads are those its encoding puts after the opcode. -/
theorem decodedBytesEncodeBack : Obligations.DecodedBytesEncodeBack := by
  unfold Obligations.DecodedBytesEncodeBack
  intro absent bytes i rest h
  obtain ⟨op, f, hform, hbytes⟩ := decodeWith_eq_ok h
  obtain ⟨hpresent, hgrid⟩ := decodeOpcode_eq_some.1 hform
  have hcode := grid_formEncodesAs hgrid
  suffices hencode : bytes = encode i ++ rest ∧ opcode i = op by
    obtain ⟨hb, ho⟩ := hencode
    exact ⟨hb, by rw [wellFormedIn, ho, hpresent, Bool.not_false]⟩
  unfold opcode
  rcases hbytes with ⟨rfl, rfl⟩ | ⟨g, b, rfl, rfl, rfl⟩ | ⟨g, lo, hi, rfl, rfl, rfl⟩
  · rw [show encode i = encode0 op from hcode]
    exact ⟨rfl, rfl⟩
  · rw [hcode b]
    exact ⟨rfl, rfl⟩
  · rw [hcode, encode2_append]
    exact ⟨rfl, rfl⟩

/-- Settles O1: the decoder is run on each word. -/
theorem specWordsDecode : Obligations.SpecWordsDecode := by
  unfold Obligations.SpecWordsDecode
  exact ⟨rfl, rfl, rfl, rfl, rfl, rfl, rfl, rfl, rfl, rfl, rfl, rfl, rfl⟩

/-! ### Fetching -/

theorem afterFetches_succ (n : Nat) (s : State) : afterFetches (n + 1) s = afterFetches n (fetch8 s).2 := rfl

/-- `n` fetches move `PC` on `n` bytes, modulo 65536 (R23, R104). -/
@[simp] theorem afterFetches_pc (n : Nat) (s : State) : (afterFetches n s).pc = s.pc + BitVec.ofNat 16 n := by
  induction n generalizing s with
  | zero => exact (BitVec.add_zero s.pc).symm
  | succ n ih =>
    rw [afterFetches_succ, ih, fetch8_pc, BitVec.ofNat_add, add_assoc, add_comm (1 : Word)]
    rfl

/-- Fetches leave every byte but the random source's as it is (R85). -/
theorem byteAt_afterFetches (n : Nat) (s : State) {b : Word} (hb : b ≠ 0x6009) :
    byteAt (afterFetches n s) b = byteAt s b := by
  induction n generalizing s with
  | zero => rfl
  | succ n ih => rw [afterFetches_succ, ih, byteAt_fetch8 s fun h => absurd h hb]

theorem fetch8_draws (s : State) : (fetch8 s).2.draws = s.draws ∨ (fetch8 s).2.draws = s.draws + 1 :=
  (readsOnly_afterRead s.pc s).draws

/-- A fetch draws at most one random byte. -/
theorem afterFetches_draws (n : Nat) (s : State) :
    s.draws ≤ (afterFetches n s).draws ∧ (afterFetches n s).draws ≤ s.draws + n := by
  induction n generalizing s with
  | zero => exact ⟨le_rfl, le_rfl⟩
  | succ n ih =>
    have hrest := ih (fetch8 s).2
    have hfirst := fetch8_draws s
    rw [afterFetches_succ]
    omega

/-- Settles O5: by the fields of `n` fetches, each an induction on `n`. -/
theorem fetchMovesPcPastBytes : Obligations.FetchMovesPcPastBytes := by
  unfold Obligations.FetchMovesPcPastBytes
  intro n s
  obtain ⟨hle, hge⟩ := afterFetches_draws n s
  refine ⟨?_, afterFetches_a n s, afterFetches_x n s, afterFetches_y n s, afterFetches_sp n s, afterFetches_p n s,
    afterFetches_bank n s, afterFetches_ram n s, afterFetches_rom n s, afterFetches_cart n s, afterFetches_dirty n s,
    afterFetches_fatal n s, afterFetches_host n s, afterFetches_config n s, hle, hge,
    fun b hb => byteAt_afterFetches n s hb⟩
  rw [afterFetches_pc, BitVec.toNat_add, BitVec.toNat_ofNat, Nat.add_mod_mod]

/-- The host's sequence of actions is nothing to a read. -/
theorem afterRead_setHost (a : Word) (s : State) (h : HostScript) :
    afterRead a (s.setHost h) = (afterRead a s).setHost h := by
  unfold afterRead
  split
  · unfold afterRegRead
    split <;> rfl
  · rfl

theorem fetch8_setHost (s : State) (h : HostScript) : (fetch8 (s.setHost h)).2 = (fetch8 s).2.setHost h := by
  simp only [fetch8, State.setHost_pc, afterRead_setHost]
  rfl

theorem afterFetches_setHost (n : Nat) (s : State) (h : HostScript) :
    afterFetches n (s.setHost h) = (afterFetches n s).setHost h := by
  induction n generalizing s with
  | zero => rfl
  | succ n ih => rw [afterFetches_succ, fetch8_setHost, ih, afterFetches_succ]

/-- The action taken off the host's sequence is nothing to the fetches. -/
theorem afterFetches_takeAction (n : Nat) (s : State) :
    afterFetches n s.takeAction = (afterFetches n s).setHost s.host.rest :=
  afterFetches_setHost n s s.host.rest

/-! ### A step on what is at `PC` -/

/-- An instruction's fetches are as many as its bytes (R102, R123). -/
theorem fetchInstr_of_decodeWith {s : State} {i : Instr} {rest : List Byte}
    (h : decodeWith s.config.absentOpcodes (bytesAtPc s) = .ok (i, rest)) :
    fetchInstr s = (.instr i, afterFetches (instrLength i) s) := by
  obtain ⟨n, hn, hfetch⟩ := fetchInstr_of_decode h
  obtain ⟨hbytes, -⟩ := decodedBytesEncodeBack _ _ _ _ h
  have hlength : 3 = instrLength i + rest.length := by
    rw [instrLength, ← List.length_append, ← hbytes]
    rfl
  rw [hfetch, show n = instrLength i by omega]

/-- Settles O4: the step is a `tick()`, and its fetch is the decoder's reading of the bytes at `PC`. -/
theorem stepRunsDecodedInstruction : Obligations.StepRunsDecodedInstruction := by
  unfold Obligations.StepRunsDecodedInstruction
  intro s i rest hrunning haction hdecode
  have hfetch : fetchInstr s.takeAction = (.instr i, afterFetches (instrLength i) s.takeAction) :=
    fetchInstr_of_decodeWith (rest := rest) (by rw [bytesAtPc_takeAction, State.takeAction_config, hdecode])
  rw [step_of_tick hrunning haction, tick, hfetch]

/-- A step on an unknown opcode is one fetch and a diagnostic (R121, R261). -/
theorem step_of_unknown {s : State} (hrunning : s.running) (haction : s.nextAction = .tick)
    (hopcode : decodeOpcode s.config.absentOpcodes (byteAt s s.pc) = none) :
    step s = .next (unknownOpcode (byteAt s s.pc) (afterFetches 1 s.takeAction)) := by
  have hfetch : fetchInstr s.takeAction = (.unknown (byteAt s s.pc), afterFetches 1 s.takeAction) := by
    have h := fetchInstr_of_unknown (s := s.takeAction) (by rw [State.takeAction_pc, byteAt_takeAction]; exact hopcode)
    rwa [State.takeAction_pc, byteAt_takeAction] at h
  rw [step_of_tick hrunning haction, tick, hfetch]

/-- The empty cells of the grid are those R121 lists. -/
theorem grid_eq_none_iff (op : Byte) : grid op = none ↔ op ∈ undefinedOpcodes := by
  rw [← Option.isNone_iff_eq_none]
  revert op
  decide

/-- Settles O6: the list is the grid's empty cells, and the step is `step_of_unknown`. -/
theorem unknownOpcodeIsOneByteNoOp : Obligations.UnknownOpcodeIsOneByteNoOp := by
  unfold Obligations.UnknownOpcodeIsOneByteNoOp
  have hopcode : ∀ absent op, decodeOpcode absent op = none ↔ op ∈ undefinedOpcodes ∨ op ∈ absent := fun absent op => by
    rw [decodeOpcode_eq_none, grid_eq_none_iff]
  refine ⟨fun op => by simp [hopcode], hopcode, rfl, fun s hrunning haction hunknown => ?_⟩
  refine ⟨_, step_of_unknown hrunning haction hunknown, ?_⟩
  simp [unknownOpcode, logDiag, afterFetches_takeAction]


/-! ### Effective addresses -/

/-- The low byte of a zero-page pointer is RAM at the pointer (R116). -/
theorem byteAt_zext16 (s : State) (b : Byte) : byteAt s (zext16 b) = s.ram.read b.toNat := by
  have hram : region (zext16 b) = .ram := region_eq_ram.2 (by rw [toNat_zext16, ramAddressBelow]; omega)
  rw [byteAt_ram hram, toNat_zext16]

/-- The high byte is at the next address, which wraps in the page when `ZP_PTR_WRAP` is set (R11, R116). -/
theorem toNat_zpPointerHigh (wrap : Bool) (b : Byte) :
    (zpPointerHigh wrap b).toNat = (b.toNat + 1) % (if wrap then 256 else 257) := by
  have hb := b.isLt
  have hone : ∀ n, (1 : BitVec (n + 1)).toNat = 1 := fun n => BitVec.toNat_one (Nat.succ_pos n)
  unfold zpPointerHigh
  split
  · rw [toNat_zext16, BitVec.toNat_add, hone]
  · rw [BitVec.toNat_add, toNat_zext16, hone]
    omega

theorem byteAt_zpPointerHigh (s : State) (wrap : Bool) (b : Byte) :
    byteAt s (zpPointerHigh wrap b) = s.ram.read ((b.toNat + 1) % (if wrap then 256 else 257)) := by
  have hn := toNat_zpPointerHigh wrap b
  have hram : region (zpPointerHigh wrap b) = .ram := region_eq_ram.2 (by
    rw [ramAddressBelow]
    split at hn <;> omega)
  rw [byteAt_ram hram, hn]

/-- The word a zero-page pointer holds, as a number (R116, R117). -/
theorem toNat_zpPointer (s : State) (b : Byte) :
    (zpPointer s b).toNat =
      (s.ram.read ((b.toNat + 1) % (if s.config.zpPtrWrap then 256 else 257))).toNat * 256 +
        (s.ram.read b.toNat).toNat := by
  rw [zpPointer, toNat_mkWord, byteAt_zpPointerHigh, byteAt_zext16]

/-- Zero-page indexing wraps in the page (R110, R111). -/
theorem toNat_zext16_add (b i : Byte) : (zext16 (b + i)).toNat = (b.toNat + i.toNat) % 256 := by
  rw [toNat_zext16, BitVec.toNat_add]

/-- Indexing of an address wraps at 65536 (R113, R114, R117). -/
theorem toNat_add_zext16 (w : Word) (i : Byte) : (w + zext16 i).toNat = (w.toNat + i.toNat) % 65536 := by
  rw [BitVec.toNat_add, toNat_zext16]

/-- Settles O36: mode by mode, the sums as numbers. -/
theorem operandAddresses : Obligations.OperandAddresses := by
  unfold Obligations.OperandAddresses
  intro s b w
  refine ⟨toNat_zext16 b, toNat_zext16_add b s.x, toNat_zext16_add b s.y, rfl, toNat_add_zext16 w s.x,
    toNat_add_zext16 w s.y, ⟨?_, ?_⟩, rfl, fun m => rfl⟩
  · rw [effAddr, toNat_zpPointer, BitVec.toNat_add]
  · rw [effAddr, toNat_add_zext16, toNat_zpPointer]


/-! ### `PC` after a tick -/

/-- The table of R126 away from the instructions that set `PC`: on to the next instruction. -/
theorem pcAfter_of_not_setsPc {i : Instr} (h : setsPc i = false) (s : State) :
    pcAfter i s = s.pc + BitVec.ofNat 16 (instrLength i) := by
  cases i
  case bpl | bmi | bvc | bvs | bcc | bcs | bne | beq | jmpAbs | jmpInd | jsr | rts | rti | brk => cases h
  all_goals rfl

theorem branch_afterFetches_pc (cond : Byte → Bool) (off : Byte) (s : State) :
    (branch (cond (afterFetches 2 s).p) off (afterFetches 2 s)).pc = branchPc (cond s.p) off s := by
  unfold branch branchPc
  rw [afterFetches_p]
  split
  · rw [State.setPc_pc, branchTarget, afterFetches_pc]
    rfl
  · rw [afterFetches_pc]
    rfl

theorem region_popAddr (s : State) (k : Nat) : region (popAddr s k) = .ram := region_stackAddr _

/-- The stack as an instruction pulls it is the stack before its fetches. -/
theorem byteAt_popAddr_afterFetches (n k : Nat) (s : State) :
    byteAt (afterFetches n s) (popAddr (afterFetches n s) k) = byteAt s (popAddr s k) := by
  have haddr : popAddr (afterFetches n s) k = popAddr s k := by simp [popAddr]
  rw [haddr, byteAt_ram (region_popAddr s k), byteAt_ram (region_popAddr s k), afterFetches_ram]

theorem popAddr_setSp_succ (s : State) (k : Nat) : popAddr (s.setSp (s.sp + 1)) k = popAddr s (k + 1) := by
  have hsp : s.sp + 1 + BitVec.ofNat 8 k = s.sp + BitVec.ofNat 8 (k + 1) := by
    rw [add_assoc, add_comm 1, BitVec.ofNat_add]
    rfl
  rw [popAddr, State.setSp_sp, State.setSp_config, hsp, popAddr]

/-- A pull of two bytes gives the low byte first (R172). -/
theorem pop16_fst (s : State) : (pop16 s).1 = mkWord (byteAt s (popAddr s 1)) (byteAt s (popAddr s 0)) := by
  simp only [pop16, pop8, byteAt_setSp, State.setSp_sp, State.setSp_config, popAddr]
  rw [BitVec.add_zero]
  rfl

theorem pop16_setSp_fst (s : State) :
    (pop16 (s.setSp (s.sp + 1))).1 = mkWord (byteAt s (popAddr s 2)) (byteAt s (popAddr s 1)) := by
  rw [pop16_fst, popAddr_setSp_succ, popAddr_setSp_succ, byteAt_setSp, byteAt_setSp]

/-- BRK goes on to the next byte when masked, and to its vector, which is ROM, when taken (R237). -/
theorem exec_brk_pc (s : State) :
    ∃ t, exec .brk (afterFetches 1 s) = .next t ∧ t.pc = pcAfter .brk s := by
  refine ⟨_, rfl, ?_⟩
  simp only [pcAfter, afterFetches_p]
  split
  · exact afterFetches_pc 1 s
  · rw [takeException_eq _ _ _ (by decide) (by decide), State.setP_pc, State.setPc_pc, wordAt, wordAt,
      byteAt_afterFetches 1 s (by decide), byteAt_afterFetches 1 s (by decide)]
    rfl

/-- After its fetches every instruction completes, with `PC` as the table of R126 says. -/
theorem exec_afterFetches_pc (i : Instr) (s : State) :
    ∃ t, exec i (afterFetches (instrLength i) s) = .next t ∧ t.pc = pcAfter i s := by
  cases hi : setsPc i with
  | false =>
    obtain ⟨t, ht, hframe⟩ := exec_cpuFrame i (afterFetches (instrLength i) s)
    exact ⟨t, ht, by rw [hframe.pc hi, afterFetches_pc, pcAfter_of_not_setsPc hi]⟩
  | true =>
    cases i
    case bpl off => exact ⟨_, rfl, branch_afterFetches_pc (fun p => !flag .N p) off s⟩
    case bmi off => exact ⟨_, rfl, branch_afterFetches_pc (flag .N) off s⟩
    case bvc off => exact ⟨_, rfl, branch_afterFetches_pc (fun p => !flag .V p) off s⟩
    case bvs off => exact ⟨_, rfl, branch_afterFetches_pc (flag .V) off s⟩
    case bcc off => exact ⟨_, rfl, branch_afterFetches_pc (fun p => !flag .C p) off s⟩
    case bcs off => exact ⟨_, rfl, branch_afterFetches_pc (flag .C) off s⟩
    case bne off => exact ⟨_, rfl, branch_afterFetches_pc (fun p => !flag .Z p) off s⟩
    case beq off => exact ⟨_, rfl, branch_afterFetches_pc (flag .Z) off s⟩
    case jmpAbs | jmpInd | jsr => exact ⟨_, rfl, rfl⟩
    case rts =>
      refine ⟨_, rfl, ?_⟩
      rw [State.setPc_pc, pop16_fst, byteAt_popAddr_afterFetches, byteAt_popAddr_afterFetches]
      rfl
    case rti =>
      refine ⟨_, rfl, ?_⟩
      rw [returnFromException_eq, State.setPc_pc, pop16_setSp_fst, byteAt_popAddr_afterFetches,
        byteAt_popAddr_afterFetches]
      rfl
    case brk => exact exec_brk_pc s
    all_goals cases hi

theorem readJmpPointer_setHost (ptr : Word) (s : State) (h : HostScript) :
    (readJmpPointer ptr (s.setHost h)).1 = (readJmpPointer ptr s).1 := by
  simp only [readJmpPointer, readPair, afterRead_setHost, byteAt_setHost, State.setHost_config]

/-- The table of R126 does not read the host's sequence. -/
theorem pcAfter_takeAction (i : Instr) (s : State) : pcAfter i s.takeAction = pcAfter i s := by
  cases i
  case jmpInd ptr => simp only [pcAfter, afterFetches_takeAction, readJmpPointer_setHost]
  case brk => simp only [pcAfter, wordAt, byteAt_takeAction, State.takeAction_p, State.takeAction_pc]
  case rts | rti =>
    simp only [pcAfter, popAddr, byteAt_takeAction, State.takeAction_sp, State.takeAction_config]
  all_goals rfl

/-- Settles O7: the step is the instruction after its fetches, or one fetch and a diagnostic. -/
theorem pcAdvancesByTable : Obligations.PcAdvancesByTable := by
  unfold Obligations.PcAdvancesByTable
  refine ⟨fun s i rest hrunning haction hdecode => ?_, fun s hrunning haction hunknown => ?_⟩
  · rw [stepRunsDecodedInstruction s i rest hrunning haction hdecode, ← pcAfter_takeAction]
    exact exec_afterFetches_pc i s.takeAction
  · exact ⟨_, step_of_unknown hrunning haction hunknown, afterFetches_pc 1 s.takeAction⟩


/-! ### Placing an instruction -/

theorem placeByte_ram_wf {s : State} (a : Word) (v : Byte) (h : s.ram.wf) : (placeByte a v s).ram.wf := by
  unfold placeByte
  split
  · exact h
  · exact h
  · exact Memory.wf_write _ _ h

theorem placeByte_rom_wf {s : State} (a : Word) (v : Byte) (h : s.rom.wf) : (placeByte a v s).rom.wf := by
  unfold placeByte
  split
  · exact Memory.wf_write _ _ h
  · exact h
  · exact h

/-- A byte placed in RAM or ROM is the byte read there. -/
theorem byteAt_placeByte_same {s : State} {a : Word} (v : Byte) (ha : region a ≠ .io) (hram : s.ram.wf)
    (hrom : s.rom.wf) : byteAt (placeByte a v s) a = v := by
  cases hr : region a with
  | rom =>
    rw [byteAt_rom hr]
    simp only [placeByte, hr]
    exact Memory.read_write_same _ _ _ hrom
  | io => exact absurd hr ha
  | ram =>
    rw [byteAt_ram hr]
    simp only [placeByte, hr]
    exact Memory.read_write_same _ _ _ hram

/-- Placing a byte changes no other address. -/
theorem byteAt_placeByte_ne {a b : Word} (v : Byte) (s : State) (h : b ≠ a) :
    byteAt (placeByte a v s) b = byteAt s b := by
  have hne : b.toNat ≠ a.toNat := fun e => h (BitVec.eq_of_toNat_eq e)
  cases ha : region a with
  | io => simp only [placeByte, ha]
  | rom =>
    simp only [placeByte, ha]
    cases hb : region b with
    | rom =>
      have hoffset : b.toNat - 0x8000 ≠ a.toNat - 0x8000 := by
        rw [region_eq_rom] at ha hb
        omega
      rw [byteAt_rom hb, byteAt_rom hb]
      exact Memory.read_write_ne _ _ hoffset
    | ram => rw [byteAt_ram hb, byteAt_ram hb, State.setRom_ram]
    | io => exact byteAt_of_slot hb rfl rfl rfl rfl
  | ram =>
    simp only [placeByte, ha]
    cases hb : region b with
    | rom => rw [byteAt_rom hb, byteAt_rom hb, State.setRam_rom]
    | ram =>
      rw [byteAt_ram hb, byteAt_ram hb]
      exact Memory.read_write_ne _ _ hne
    | io => exact byteAt_of_slot hb rfl rfl rfl rfl

/-- Placing a byte touches RAM and ROM alone. -/
theorem placeByte_eq (a : Word) (v : Byte) (s : State) :
    placeByte a v s = (s.setRam (placeByte a v s).ram).setRom (placeByte a v s).rom := by
  unfold placeByte
  split <;> rfl

theorem placeBytes_eq (a : Word) (bytes : List Byte) (s : State) :
    ∃ ram rom, placeBytes a bytes s = (s.setRam ram).setRom rom := by
  induction bytes generalizing a s with
  | nil => exact ⟨s.ram, s.rom, rfl⟩
  | cons b bytes ih =>
    obtain ⟨ram, rom, h⟩ := ih (a + 1) (placeByte a b s)
    refine ⟨ram, rom, ?_⟩
    rw [placeBytes, h, placeByte_eq]
    rfl

/-- Where the bytes go, none of the three is in the I/O window. -/
theorem placeable_placeAddr (s : State) :
    region (placeAddr s) ≠ .io ∧ region (placeAddr s + 1) ≠ .io ∧ region (placeAddr s + 2) ≠ .io := by
  have h : placeable (placeAddr s) = true := by
    unfold placeAddr
    split
    · assumption
    · decide
  simpa [placeable, and_assoc] using h

/-- Three bytes placed outside the I/O window are the three read there. -/
theorem byteAt_placeBytes {s : State} {a : Word} (b₀ b₁ b₂ : Byte) (h₀ : region a ≠ .io) (h₁ : region (a + 1) ≠ .io)
    (h₂ : region (a + 2) ≠ .io) (hram : s.ram.wf) (hrom : s.rom.wf) :
    [byteAt (placeBytes a [b₀, b₁, b₂] s) a, byteAt (placeBytes a [b₀, b₁, b₂] s) (a + 1),
      byteAt (placeBytes a [b₀, b₁, b₂] s) (a + 2)] = [b₀, b₁, b₂] := by
  have e₂ : a + 1 + 1 = a + 2 := by rw [add_assoc]; rfl
  have n₀₁ : a ≠ a + 1 := by bv_omega
  have n₀₂ : a ≠ a + 2 := by bv_omega
  have n₁₂ : a + 1 ≠ a + 2 := by bv_omega
  have hram₁ := placeByte_ram_wf a b₀ hram
  have hrom₁ := placeByte_rom_wf a b₀ hrom
  simp only [placeBytes, e₂]
  rw [byteAt_placeByte_ne _ _ n₀₂, byteAt_placeByte_ne _ _ n₀₁, byteAt_placeByte_same _ h₀ hram hrom,
    byteAt_placeByte_ne _ _ n₁₂, byteAt_placeByte_same _ h₁ hram₁ hrom₁,
    byteAt_placeByte_same _ h₂ (placeByte_ram_wf _ _ hram₁) (placeByte_rom_wf _ _ hrom₁)]

/-- Placing an instruction sets `PC` and the host's sequence, and touches RAM and ROM alone. -/
theorem withFetchWord_eq (s : State) (nbits w : Nat) :
    ∃ ram rom, s.withFetchWord nbits w =
      (((s.setPc (placeAddr s)).setRam ram).setRom rom).setHost ⟨.tick :: s.host.soon, s.host.later⟩ := by
  obtain ⟨ram, rom, h⟩ := placeBytes_eq (placeAddr s) (tableBytes nbits w) (s.setPc (placeAddr s))
  exact ⟨ram, rom, by rw [State.withFetchWord, h]⟩

theorem withFetchWord_pc (s : State) (nbits w : Nat) : (s.withFetchWord nbits w).pc = placeAddr s := by
  obtain ⟨ram, rom, h⟩ := withFetchWord_eq s nbits w
  rw [h]
  rfl

/-- The bytes at `PC` are those of the table word. -/
theorem bytesAtPc_withFetchWord {s : State} (nbits w : Nat) (hram : s.ram.wf) (hrom : s.rom.wf) :
    bytesAtPc (s.withFetchWord nbits w) = tableBytes nbits w := by
  obtain ⟨h₀, h₁, h₂⟩ := placeable_placeAddr s
  rw [bytesAtPc, withFetchWord_pc]
  simp only [State.withFetchWord, byteAt_setHost]
  exact byteAt_placeBytes (s := s.setPc (placeAddr s)) _ _ _ h₀ h₁ h₂ hram hrom

/-- Settles O9: the placed machine runs, ticks next, and has the word's bytes at `PC`. -/
theorem fetchWordPlacementRunsIt : Obligations.FetchWordPlacementRunsIt := by
  unfold Obligations.FetchWordPlacementRunsIt
  intro s nbits w i rest hrunning hram hrom hdecode
  have hbytes := bytesAtPc_withFetchWord nbits w hram hrom
  obtain ⟨ram, rom, hplaced⟩ := withFetchWord_eq s nbits w
  refine stepRunsDecodedInstruction (s.withFetchWord nbits w) i rest ?_ rfl ?_
  · rw [hplaced]
    exact hrunning
  · rw [hbytes, hplaced]
    exact hdecode

end Sys2Proof.Machine
end

section
/-! PROOFS. The family of spec/40_load_store.md: every form of the loads (O38) and of the stores (O39). -/

namespace Sys2Proof.Machine

/-- A load takes `SetZN` of the flags its read leaves, and no read changes `P` (R85): they are those before it. -/
theorem loadsInto_of_exec {set : State → Byte → State} {m : Source} {i : Instr}
    (h : ∀ s, exec i s = .next ((set (loadOperand m s).2 (loadOperand m s).1).setP
      (setZN (loadOperand m s).1 (loadOperand m s).2.p))) : LoadsInto set m i := fun s => by
  rw [h, loadOperand_p]

/-- Settles O38: each form is its register's load at its mode, whose flags are those of `loadsInto_of_exec`. -/
theorem loads : Obligations.Loads := by
  unfold Obligations.Loads ForReadForms
  refine ⟨fun _ _ => rfl, fun _ _ => rfl, fun _ _ => rfl, ⟨?_, ?_, ?_, ?_, ?_, ?_, ?_, ?_⟩, ?_, ?_, ?_, ?_, ?_,
    ?_, ?_, ?_, ?_, ?_⟩
  all_goals exact fun _ => loadsInto_of_exec fun _ => rfl

/-- Settles O39: each form is `storeTo` at its mode, and `storeTo` is the byte write; what stops the machine is the
write's own law, `writeByte_fatal`. -/
theorem stores : Obligations.Stores := by
  unfold Obligations.Stores
  refine ⟨fun _ _ => rfl, fun _ _ => rfl, ?_, ?_, ?_, ?_, ?_, ?_, ?_, ?_, ?_, ?_, ?_, ?_, ?_, fun v s => ?fatal⟩
  case fatal => rw [writeByte_fatal, decide_eq_true rfl, Bool.true_or]
  all_goals exact fun _ _ => rfl

end Sys2Proof.Machine
end

section
/-! PROOFS. The family of spec/41_transfer.md: the six register transfers (O40). -/

namespace Sys2Proof.Machine

/-- Settles O40: a transfer that sets flags is the register load of its destination (`loadX`, `loadY`, `loadA`) with the
source register as the value, and these loads are the write and `SetZN` by definition; TXS is `State.setSp` alone. -/
theorem transfers : Obligations.Transfers := by
  unfold Obligations.Transfers
  refine ⟨rfl, fun s => ⟨?tax, ?tay, ?txa, ?tya, ?tsx, ?txs⟩⟩
  case tax => exact (rfl : exec .tax s = .next (loadX s.a s))
  case tay => exact (rfl : exec .tay s = .next (loadY s.a s))
  case txa => exact (rfl : exec .txa s = .next (loadA s.x s))
  case tya => exact (rfl : exec .tya s = .next (loadA s.y s))
  case tsx => exact (rfl : exec .tsx s = .next (loadX s.sp s))
  case txs => exact (rfl : exec .txs s = .next (s.setSp s.x))

end Sys2Proof.Machine
end

section
/-! PROOFS. The family of spec/42_incdec.md: the flags of an increment and a decrement (O41), INC and DEC on memory
(O42), and on `X` and `Y` (O43). -/

namespace Sys2Proof.Machine

/-! ### The three flags of a stepped byte -/

/-- Zero as a proposition about the byte (R180). -/
theorem flag_Z_setZN (v p : Byte) : flag .Z (setZN v p) = decide (v = 0) :=
  (flag_setZN .Z v p).trans (beq_eq_decide ..)

/-- Negative as a bound on the byte (R180). -/
theorem flag_N_setZN (v p : Byte) : flag .N (setZN v p) = decide (128 ≤ v.toNat) :=
  (flag_setZN .N v p).trans v.msb_eq_decide

/-- `SetZN` leaves the Carry written before it. -/
theorem flag_C_setZN_putCarry (v p : Byte) (c : Bool) : flag .C (setZN v (putFlag .C c p)) = c :=
  (flag_setZN .C v _).trans (flag_putFlag_same .C c p)

/-! ### The byte steps and their Carry -/

/-- An increment gives 0x00 exactly where it wraps. -/
theorem add_one_eq_zero_iff (v : Byte) : v + 1 = 0 ↔ v = 0xFF := by bv_omega

/-- A decrement gives 0xFF exactly where it wraps. -/
theorem sub_one_eq_ff_iff (v : Byte) : v - 1 = 0xFF ↔ v = 0x00 := by bv_omega

theorem toNat_sub_one (v : Byte) : (v - 1).toNat = (v.toNat + 255) % 256 := by bv_omega

/-- Carry after a decrement, one value of `DECINC_CARRY` against the other (R11, R160). -/
theorem decCarry_eq (d : DecIncCarry) (v : Byte) :
    decCarry d v = if d = .wrapped then v == 0x00 else v != 0x00 := by
  cases d <;> rfl

theorem flag_C_inc8 (v p : Byte) : flag .C (inc8 v p).2 = decide (v = 0xFF) :=
  (flag_C_setZN_putCarry ..).trans (beq_eq_decide ..)

theorem flag_C_dec8_wrapped (v p : Byte) : flag .C (dec8 .wrapped v p).2 = decide (v = 0x00) :=
  (flag_C_setZN_putCarry ..).trans (beq_eq_decide ..)

theorem flag_C_dec8_borrow (v p : Byte) : flag .C (dec8 .borrow v p).2 = decide (v ≠ 0x00) :=
  (flag_C_setZN_putCarry ..).trans (decide_not ..).symm

/-- Settles O41: the flags of both are a Carry and `SetZN` of the result, and a result tells a wrap. -/
theorem incrementLaw : Obligations.IncrementLaw := by
  unfold Obligations.IncrementLaw
  intro d v p
  have hincWrap : flag .C (inc8 v p).2 = flag .Z (inc8 v p).2 := calc
    flag .C (inc8 v p).2 = decide (v = 0xFF) := flag_C_inc8 v p
    _ = decide (v + 1 = 0) := decide_eq_decide.2 (add_one_eq_zero_iff v).symm
    _ = flag .Z (inc8 v p).2 := (flag_Z_setZN (v + 1) _).symm
  have hdecWrap : flag .C (dec8 .wrapped v p).2 = decide ((dec8 .wrapped v p).1 = 0xFF) := calc
    flag .C (dec8 .wrapped v p).2 = decide (v = 0x00) := flag_C_dec8_wrapped v p
    _ = decide (v - 1 = 0xFF) := decide_eq_decide.2 (sub_one_eq_ff_iff v).symm
  refine ⟨BitVec.toNat_add v 1, flag_C_inc8 v p, flag_Z_setZN _ _, flag_N_setZN _ _, hincWrap, toNat_sub_one v,
    flag_C_dec8_wrapped v p, flag_C_dec8_borrow v p, flag_Z_setZN _ _, flag_N_setZN _ _, hdecWrap,
    fun f hC hZ hN => ?frame⟩
  have hf : f ∉ [Flag.C, .Z, .N] := by simp [hC, hZ, hN]
  exact ⟨keepsFlags_setZN_putCarry _ p _ f hf, keepsFlags_setZN_putCarry _ p _ f hf⟩

/-! ### The instructions -/

/-- `dec8` with its Carry as the statements write it. -/
theorem dec8_eq (d : DecIncCarry) (v p : Byte) :
    dec8 d v p = (v - 1, setZN (v - 1) (putFlag .C (if d = .wrapped then v == 0x00 else v != 0x00) p)) := by
  rw [← decCarry_eq, dec8]

/-- A read-modify-write whose function writes a Carry and `SetZN` of its result is a step of memory (R119, R160). -/
theorem stepsMemory_of_exec {step : Config → Byte → Byte → Byte × Byte} {r : Byte → Byte} {c : Config → Byte → Bool}
    {m : MemOperand} {i : Instr} (hexec : ∀ s, exec i s = .next (modifyMem m (step s.config) s))
    (hstep : ∀ cfg v p, step cfg v p = (r v, setZN (r v) (putFlag .C (c cfg v) p))) : StepsMemory r c m i := fun s => by
  rw [hexec, modifyMem_eq, hstep]

/-- Settles O42: each form modifies memory at its mode, INC by `inc8` and DEC by `dec8`. -/
theorem incDecMemory : Obligations.IncDecMemory := by
  unfold Obligations.IncDecMemory ForMemForms
  refine ⟨fun _ _ => rfl, ⟨?incZp, ?incZpx, ?incAbs, ?incAbx⟩, ?decZp, ?decZpx, ?decAbs, ?decAbx⟩
  case incZp | incZpx | incAbs | incAbx =>
    exact fun _ => stepsMemory_of_exec (step := fun _ => inc8) (fun _ => rfl) fun _ _ _ => rfl
  case decZp | decZpx | decAbs | decAbx =>
    exact fun _ => stepsMemory_of_exec (step := fun cfg => dec8 cfg.decIncCarry) (fun _ => rfl) fun _ => dec8_eq _

/-- Settles O43: INX and INY are `inc8` of their register by definition, DEX and DEY are `dec8`, whose Carry is
`decCarry_eq`. -/
theorem incDecRegisters : Obligations.IncDecRegisters := by
  unfold Obligations.IncDecRegisters
  refine ⟨rfl, fun s => ⟨?inx, ?iny, ?dex, ?dey⟩⟩
  case inx | iny => rfl
  case dex | dey =>
    rw [← decCarry_eq]
    rfl

end Sys2Proof.Machine
end

section
/-! PROOFS. The family of spec/43_stack.md: PHA, PLA, PHP and PLP (O44), a pull after a push (O45), and the flags
pushed and pulled (O46). -/

namespace Sys2Proof.Machine

/-! ### Pushes and pulls at the slots of the statements -/

theorem popAddr_zero (s : State) : popAddr s 0 = stackAddr (popSlot s.config.stackDiscipline s.sp) := by
  simp [popAddr]

theorem push8_eq_pushAddr (v : Byte) (s : State) :
    push8 v s = (s.setSp (s.sp - 1)).setRam (s.ram.write (pushAddr s 0).toNat v) := by
  rw [push8_eq, pushAddr_zero]

theorem pop8_eq_popAddr (s : State) : pop8 s = (s.ram.read (popAddr s 0).toNat, s.setSp (s.sp + 1)) := by
  rw [pop8, ← popAddr_zero, byteAt_ram (region_popAddr s 0)]

/-- A pull reads the slot the push before it wrote, whichever the discipline (R170, R171). -/
theorem popSlot_sub_one (d : StackDiscipline) (sp : Byte) : popSlot d (sp - 1) = pushSlot d sp := by
  cases d with
  | predecPostinc => rfl
  | postdecPreinc => exact BitVec.sub_add_cancel sp 1

/-- All a pull depends on is the parameters, `SP` and RAM: after a push it gives the pushed byte and the old `SP` in
any state that has these three as the push left them (R171). -/
theorem pop8_after_push8 {v : Byte} {s t : State} (hw : s.ram.wf) (hconfig : t.config = (push8 v s).config)
    (hsp : t.sp = (push8 v s).sp) (hram : t.ram = (push8 v s).ram) : pop8 t = (v, t.setSp s.sp) := by
  rw [push8_eq_pushAddr] at hconfig hsp hram
  have haddr : popAddr t 0 = pushAddr s 0 := by
    rw [popAddr_zero, hconfig, hsp, pushAddr_zero]
    exact congrArg stackAddr (popSlot_sub_one _ _)
  have hread : t.ram.read (popAddr t 0).toNat = v := by
    rw [haddr, hram]
    exact Memory.read_write_same _ _ _ hw
  have hback : t.sp + 1 = s.sp := by
    rw [hsp]
    exact BitVec.sub_add_cancel s.sp 1
  rw [pop8_eq_popAddr, hread, hback]

/-! ### The instructions -/

/-- Settles O44: the addresses are those of the slots of each discipline; PHA and PHP are one push, PLA and PLP one
pull, and these are RAM accesses at the slot (`push8_eq_pushAddr`, `pop8_eq_popAddr`). -/
theorem stackInstructions : Obligations.StackInstructions := by
  unfold Obligations.StackInstructions
  refine ⟨fun s k => ⟨fun hd => ?predec, fun hd => ?postdec⟩, rfl, fun s => ⟨?pha, ?pla, ?php, ?plp⟩⟩
  case predec | postdec =>
    rw [pushAddr, popAddr, hd]
    exact ⟨rfl, rfl⟩
  case pha => exact congrArg Host.Outcome.next (push8_eq_pushAddr s.a s)
  case php => exact congrArg Host.Outcome.next (push8_eq_pushAddr (s.p ||| s.config.forceMask) s)
  case pla =>
    rw [show exec .pla s = .next (loadA (pop8 s).1 (pop8 s).2) from rfl, pop8_eq_popAddr]
    rfl
  case plp =>
    rw [show exec .plp s = .next (popP s) from rfl, popP, pop8_eq_popAddr]
    rfl

/-- Settles O45: PLA loads what `pop8_after_push8` says its pull gives, and a pull does not write RAM. -/
theorem pushThenPull : Obligations.PushThenPull := by
  unfold Obligations.PushThenPull
  intro s hw
  refine ⟨push8 s.a s, rfl, fun t' hconfig hsp hram => ⟨loadA (pop8 t').1 (pop8 t').2, rfl, ?_⟩⟩
  have hkept : t'.ram.read (pushAddr s 0).toNat = s.a := by
    rw [hram, push8_ram, ← pushAddr_zero]
    exact Memory.read_write_same _ _ _ hw
  rw [pop8_after_push8 hw hconfig hsp hram]
  exact ⟨rfl, rfl, hram, hkept⟩

/-- The bits a push forces are those a pull clears (R173). -/
theorem restoredOnPop_forcedOnPush (mask p : Byte) : restoredOnPop mask (forcedOnPush mask p) = p &&& ~~~mask := by
  calc (p ||| mask) &&& ~~~mask
    _ = p &&& ~~~mask ||| mask &&& ~~~mask := BitVec.and_or_distrib_right
    _ = p &&& ~~~mask := by rw [BitVec.and_not_self]; exact BitVec.or_zero

/-- Settles O46: PHP pushes the forced byte, PLP pulls it back by `pop8_after_push8` and restores it. -/
theorem flagsRoundTrip : Obligations.FlagsRoundTrip := by
  unfold Obligations.FlagsRoundTrip
  refine ⟨fun mask p => ⟨rfl, rfl, restoredOnPop_forcedOnPush mask p⟩, fun s hw =>
    ⟨pushP s, popP (pushP s), rfl, ?kept, ?pushed, rfl, ?restored⟩⟩
  case kept => exact push8_p _ s
  case pushed => rw [pushP, byteAt_push8 _ _ _ hw, if_pos (pushAddr_zero s), forcedOnPush]
  case restored =>
    have hconfig : (pushP s).config = s.config := push8_config _ s
    rw [popP, pop8_after_push8 (t := pushP s) hw rfl rfl rfl, hconfig, restoredOnPop_forcedOnPush]
    exact ⟨rfl, rfl⟩

end Sys2Proof.Machine
end

section
/-! PROOFS. The family of spec/44_logic_arith.md: `SetZN` (O37), the bitwise instructions (O47), BIT (O48), ADC and SBC
(O49, O50) and the two in a row (O51). -/

namespace Sys2Proof.Machine

/-! ### `SetZN` and the bitwise instructions -/

/-- Settles O37: Zero and Negative are those of `flag_Z_setZN` and `flag_N_setZN`, the rest is its frame. -/
theorem setZnWritesTwoFlags : Obligations.SetZnWritesTwoFlags := by
  unfold Obligations.SetZnWritesTwoFlags
  intro v p
  exact ⟨flag_Z_setZN v p, flag_N_setZN v p, fun f hZ hN => keepsFlags_setZN v p f (by simp [hZ, hN])⟩

/-- A bitwise instruction combines the `A` and takes `SetZN` of the `P` its read leaves, and no read changes either
(R85): they are those before it. -/
theorem combinesWithA_of_exec {f : Byte → Byte → Byte} {m : Source} {i : Instr}
    (h : ∀ s, exec i s = .next (loadA (f (loadOperand m s).2.a (loadOperand m s).1) (loadOperand m s).2)) :
    CombinesWithA f m i := fun s => by
  rw [h, loadA, loadOperand_a, loadOperand_p]

/-- Settles O47: each form is `loadA` of its function at its mode, as `combinesWithA_of_exec` takes it. -/
theorem logicInstructions : Obligations.LogicInstructions := by
  unfold Obligations.LogicInstructions ForReadForms
  refine ⟨fun _ _ => rfl, fun _ _ => rfl, fun _ _ => rfl, ⟨?_, ?_, ?_, ?_, ?_, ?_, ?_, ?_⟩,
    ⟨?_, ?_, ?_, ?_, ?_, ?_, ?_, ?_⟩, ?_, ?_, ?_, ?_, ?_, ?_, ?_, ?_⟩
  all_goals exact fun _ => combinesWithA_of_exec fun _ => rfl

/-! ### BIT -/

/-- Bit 6 of a byte, as a number. -/
theorem getLsbD_six (v : Byte) : v.getLsbD 6 = decide (64 ≤ v.toNat % 128) := by
  rw [BitVec.getLsbD, Nat.testBit_eq_decide_div_mod_eq, decide_eq_decide]
  omega

/-- Bit 7 of a byte, as a number. -/
theorem getLsbD_seven (v : Byte) : v.getLsbD 7 = decide (128 ≤ v.toNat) := v.msb_eq_decide

theorem bitTest_eq (m : MemOperand) (s : State) :
    bitTest m s = (afterRead (effAddr m s) s).setP (bitFlags s.a (byteAt s (effAddr m s)) s.p) := by
  simp [bitTest, loadOperand, readByte]

/-- Settles O48: both forms are `bitTest` at their mode, which writes the flags of `flag_bitFlags` and nothing else. -/
theorem bitTestForms : Obligations.BitTest := by
  unfold Obligations.BitTest
  refine ⟨fun _ _ => rfl, fun s m i hform => ⟨bitTest m s, ?exec, ?flags⟩⟩
  case exec => obtain ⟨_, rfl, rfl⟩ | ⟨_, rfl, rfl⟩ := hform <;> rfl
  case flags =>
    rw [bitTest_eq]
    exact ⟨rfl, (flag_bitFlags .Z ..).trans (beq_eq_decide ..), (flag_bitFlags .V ..).trans (getLsbD_six _),
      (flag_bitFlags .N ..).trans (getLsbD_seven _),
      fun f hZ hV hN => keepsFlags_bitFlags _ _ s.p f (by simp [hZ, hV, hN])⟩

/-! ### ADC and SBC -/

theorem toNat_adcResult (a w : Byte) (c : Bool) : (adcResult a w c).toNat = (a.toNat + w.toNat + c.toNat) % 256 :=
  BitVec.toNat_ofNat ..

theorem flag_C_adcFlags (a w p : Byte) :
    flag .C (adcFlags a w p) = decide (255 < a.toNat + w.toNat + (flag .C p).toNat) := flag_adcFlags .C a w p

/-- Overflow as the signed sum leaving its range (R185). -/
theorem flag_V_adcFlags (a w p : Byte) : flag .V (adcFlags a w p) =
    decide (a.toInt + w.toInt + (flag .C p).toNat < -128 ∨ 127 < a.toInt + w.toInt + (flag .C p).toNat) :=
  (flag_adcFlags .V a w p).trans (adcOverflow_eq ..)

/-- The byte `AddWithCarry` is given: the operand of ADC, the one's complement of that of SBC (R186, R187). -/
def addend (sub : Bool) (v : Byte) : Byte := if sub then ~~~v else v

theorem toNat_addend_true (v : Byte) : (addend true v).toNat = 255 - v.toNat := BitVec.toNat_not

/-- The one's complement is the negation less one, so SBC is ADC of it with the borrow as the missing Carry (R187). -/
theorem toInt_addend_true (v : Byte) : (addend true v).toInt = -v.toInt - 1 := by
  have hv := v.isLt
  rw [BitVec.toInt_eq_toNat_cond, toNat_addend_true, BitVec.toInt_eq_toNat_cond]
  split <;> split <;> omega

/-- `AddWithCarry` of an operand read: no read changes `A` or `P` (R85). -/
theorem addWithCarry_loadOperand (w : Byte) (m : Source) (s : State) :
    addWithCarry w (loadOperand m s).2 =
      ((loadOperand m s).2.setA (adcResult s.a w (flag .C s.p))).setP (adcFlags s.a w s.p) := by
  rw [addWithCarry, loadOperand_a, loadOperand_p]

/-- An instruction that is `AddWithCarry` of its addend adds or subtracts as R185 to R187 say. -/
theorem addsWithCarry_of_exec {sub : Bool} {m : Source} {i : Instr}
    (h : ∀ s, exec i s = .next (addWithCarry (addend sub (loadOperand m s).1) (loadOperand m s).2)) :
    AddsWithCarry sub m i := by
  intro s
  refine ⟨_, h s, ?_⟩
  rw [addWithCarry_loadOperand]
  intro v c n
  have hc : (flag .C s.p).toNat = c := Bool.cond_eq_ite ..
  have hresult := toNat_adcResult s.a (addend sub v) (flag .C s.p)
  have hcarry := flag_C_adcFlags s.a (addend sub v) s.p
  have hoverflow := flag_V_adcFlags s.a (addend sub v) s.p
  have hsum : s.a.toInt + (addend sub v).toInt + c = n := by
    cases sub with
    | false => rfl
    | true =>
      rw [toInt_addend_true]
      show _ = s.a.toInt - v.toInt - (1 - (c : Int))
      omega
  rw [hc] at hresult hcarry hoverflow
  rw [hsum] at hoverflow
  refine ⟨rfl, fun hadd => ?add, fun hsub => ?sub, hoverflow, flag_Z_setZN _ _, flag_setZN .N _ _,
    keepsFlags_adcFlags _ _ _ .I (by decide), keepsFlags_adcFlags _ _ _ .D (by decide),
    keepsFlags_adcFlags _ _ _ .B (by decide), keepsFlags_adcFlags _ _ _ .U (by decide)⟩
  case add =>
    subst hadd
    exact ⟨hresult, hcarry⟩
  case sub =>
    subst hsub
    have hv := v.isLt
    have hc1 : c ≤ 1 := hc ▸ Bool.toNat_le _
    rw [toNat_addend_true] at hresult hcarry
    exact ⟨hresult.trans (by omega), hcarry.trans (decide_eq_decide.2 (by omega))⟩

/-- Settles O49: each form is `AddWithCarry` of its operand. -/
theorem addWithCarryForms : Obligations.AddWithCarry := by
  unfold Obligations.AddWithCarry ForReadForms
  refine ⟨fun _ _ => rfl, ?_, ?_, ?_, ?_, ?_, ?_, ?_, ?_⟩
  all_goals exact fun _ => addsWithCarry_of_exec fun _ => rfl

/-- Settles O50: each form is `AddWithCarry` of its operand's one's complement. -/
theorem subtractWithBorrow : Obligations.SubtractWithBorrow := by
  unfold Obligations.SubtractWithBorrow ForReadForms
  refine ⟨fun _ _ => rfl, ?_, ?_, ?_, ?_, ?_, ?_, ?_, ?_⟩
  all_goals exact fun _ => addsWithCarry_of_exec fun _ => rfl

/-! ### ADC, then SBC -/

/-- The result with Carry written just before. -/
theorem addWithCarry_putCarry_a (w : Byte) (c : Bool) (s : State) :
    (addWithCarry w (s.setP (putFlag .C c s.p))).a = adcResult s.a w c :=
  congrArg (adcResult s.a w) (flag_putFlag_same .C c s.p)

/-- The number an addition and then the subtraction of the same byte give, each with its own Carry (R190). -/
theorem toNat_adcResult_adcResult_not (a v : Byte) (c1 c2 : Bool) :
    (adcResult (adcResult a v c1) (~~~v) c2).toNat = (a.toNat + c1.toNat + c2.toNat + 255) % 256 := by
  have hv := v.isLt
  rw [toNat_adcResult, toNat_adcResult, BitVec.toNat_not]
  omega

/-- Settles O51: `A` ends at the number of `toNat_adcResult_adcResult_not`, and that is `A` exactly if the two Carries
add up to one. -/
theorem adcThenSbc : Obligations.AdcThenSbc := by
  unfold Obligations.AdcThenSbc
  intro s v c1 c2
  let t := addWithCarry v (s.setP (putFlag .C c1 s.p))
  let u := addWithCarry (~~~v) (t.setP (putFlag .C c2 t.p))
  have hu : u.a.toNat = (s.a.toNat + c1.toNat + c2.toNat + 255) % 256 := by
    rw [addWithCarry_putCarry_a, addWithCarry_putCarry_a, toNat_adcResult_adcResult_not]
  have hone : c1 ≠ c2 ↔ c1.toNat + c2.toNat = 1 := by cases c1 <;> cases c2 <;> decide
  refine ⟨t, u, rfl, rfl, hu, ?_⟩
  have ha := s.a.isLt
  have h1 := c1.toNat_le
  have h2 := c2.toNat_le
  rw [hone, ← BitVec.toNat_inj, hu]
  omega

end Sys2Proof.Machine
end

section
/-! PROOFS. The family of spec/44_logic_arith.md: no instruction's result depends on Decimal (O52). Each shared operation
of the machine is shown to ignore Decimal; an instruction is one of these, writes Decimal, or pushes `P`. -/

namespace Sys2Proof.Machine

/-! ### Decimal and the flag computations -/

/-- Writes of two flags may be exchanged; stated with Decimal as one of the two, to bring it outermost. -/
theorem putFlag_putDecimal {f : Flag} (hf : f ≠ .D) (b c : Bool) (p : Byte) :
    putFlag f c (putFlag .D b p) = putFlag .D b (putFlag f c p) := by
  refine eq_of_flags fun g => ?_
  simp only [flag_putFlag]
  split
  · rename_i hg
    rw [if_neg (hg.trans_ne hf)]
  · rfl

/-- The later of two writes of Decimal counts. -/
theorem putDecimal_putDecimal (b c : Bool) (p : Byte) : putFlag .D c (putFlag .D b p) = putFlag .D c p := by
  refine eq_of_flags fun g => ?_
  simp only [flag_putFlag]
  split <;> rfl

theorem flag_putDecimal {f : Flag} (hf : f ≠ .D) (b : Bool) (p : Byte) : flag f (putFlag .D b p) = flag f p :=
  flag_putFlag_ne b p hf

theorem setZN_putDecimal (v p : Byte) (b : Bool) : setZN v (putFlag .D b p) = putFlag .D b (setZN v p) := by
  simp (disch := decide) only [setZN, putFlag_putDecimal]

/-- Carry and then `SetZN`: the flags of the compares, the increments and decrements, and the shifts. -/
theorem setZN_putCarry_putDecimal (v p : Byte) (b c : Bool) :
    setZN v (putFlag .C c (putFlag .D b p)) = putFlag .D b (setZN v (putFlag .C c p)) := by
  rw [putFlag_putDecimal (by decide), setZN_putDecimal]

theorem adcFlags_putDecimal (a w p : Byte) (b : Bool) :
    adcFlags a w (putFlag .D b p) = putFlag .D b (adcFlags a w p) := by
  simp (disch := decide) only [adcFlags, flag_putDecimal, putFlag_putDecimal, setZN_putDecimal]

theorem bitFlags_putDecimal (a v p : Byte) (b : Bool) :
    bitFlags a v (putFlag .D b p) = putFlag .D b (bitFlags a v p) := by
  simp (disch := decide) only [bitFlags, putFlag_putDecimal]

theorem flag_or (f : Flag) (p q : Byte) : flag f (p ||| q) = (flag f p || flag f q) := BitVec.getLsbD_or

/-- A mask with bit 3 hides Decimal from a push (R173). -/
theorem forcedOnPush_putDecimal {mask : Byte} (hmask : mask.getLsbD 3 = true) (b : Bool) (p : Byte) :
    forcedOnPush mask (putFlag .D b p) = forcedOnPush mask p := by
  refine eq_of_flags fun f => ?_
  rw [forcedOnPush, forcedOnPush, flag_or, flag_or]
  by_cases hf : f = .D
  · rw [hf, show flag .D mask = true from hmask, Bool.or_true, Bool.or_true]
  · rw [flag_putDecimal hf]

/-- A mask with bit 3 leaves Decimal clear after a pull (R173). -/
theorem flag_D_restoredOnPop {mask : Byte} (hmask : mask.getLsbD 3 = true) (v : Byte) :
    flag .D (restoredOnPop mask v) = false := by
  simp [flag, flagBit, restoredOnPop, hmask]

/-- The flags an exception sets, where Decimal is not one of them (R237). -/
theorem putDecimal_or {set : Byte} (hset : flag .D set = false) (b : Bool) (p : Byte) :
    putFlag .D b p ||| set = putFlag .D b (p ||| set) := by
  refine eq_of_flags fun f => ?_
  by_cases hf : f = .D
  · rw [flag_or, hf, flag_putFlag_same, flag_putFlag_same, hset, Bool.or_false]
  · rw [flag_or, flag_putDecimal hf, flag_putDecimal hf, flag_or]

/-! ### `P` and the accesses to memory -/

theorem afterRead_setP (a : Word) (p : Byte) (s : State) : afterRead a (s.setP p) = (afterRead a s).setP p := by
  unfold afterRead
  split
  · unfold afterRegRead
    split <;> rfl
  · rfl

theorem writeByte_setP (a : Word) (v p : Byte) (s : State) : writeByte a v (s.setP p) = (writeByte a v s).setP p := by
  unfold writeByte
  split
  · rfl
  · unfold regWrite
    split <;> rfl
  · dsimp only
    split <;> rfl

theorem effAddr_setP (m : MemOperand) (p : Byte) (s : State) : effAddr m (s.setP p) = effAddr m s :=
  effAddr_congr m rfl rfl rfl rfl

theorem loadOperand_setP (m : Source) (p : Byte) (s : State) :
    loadOperand m (s.setP p) = ((loadOperand m s).1, (loadOperand m s).2.setP p) := by
  cases m with
  | imm v => rfl
  | mem o =>
    rw [loadOperand, effAddr_setP, readByte, byteAt_setP, afterRead_setP]
    rfl

theorem pop8_setP (p : Byte) (s : State) : pop8 (s.setP p) = ((pop8 s).1, (pop8 s).2.setP p) := by
  rw [pop8_eq_popAddr, pop8_eq_popAddr]
  rfl

theorem pop16_setP (p : Byte) (s : State) : pop16 (s.setP p) = ((pop16 s).1, (pop16 s).2.setP p) := by
  rw [pop16_eq_ram, pop16_eq_ram]
  rfl

theorem readPair_setP (lo hi : Word) (p : Byte) (s : State) :
    readPair lo hi (s.setP p) = ((readPair lo hi s).1, (readPair lo hi s).2.setP p) := by
  simp only [readPair, byteAt_setP, afterRead_setP]

/-! ### Operations that ignore Decimal -/

/-- The state with another Decimal flag. -/
def State.setDecimal (s : State) (b : Bool) : State := s.setP (putFlag .D b s.p)

/-- `f` neither reads nor writes Decimal: a change of Decimal before `f` is the same change after it. -/
def IgnoresDecimal (f : State → State) : Prop := ∀ s b, f (s.setDecimal b) = (f s).setDecimal b

/-- A result and a flags byte from a value and a flags byte, Decimal neither read nor written. -/
def StepIgnoresDecimal (f : Byte → Byte → Byte × Byte) : Prop :=
  ∀ v p b, f v (putFlag .D b p) = ((f v p).1, putFlag .D b (f v p).2)

theorem stepIgnoresDecimal_inc8 : StepIgnoresDecimal inc8 := fun v p b =>
  congrArg (Prod.mk (v + 1)) (setZN_putCarry_putDecimal _ p b _)

theorem stepIgnoresDecimal_dec8 (d : DecIncCarry) : StepIgnoresDecimal (dec8 d) := fun v p b =>
  congrArg (Prod.mk (v - 1)) (setZN_putCarry_putDecimal _ p b _)

theorem stepIgnoresDecimal_shift8 (ins : RorInsert) (k : ShiftKind) : StepIgnoresDecimal (shift8 ins k) :=
  fun v p b => by
    simp only [shift8, flag_putDecimal (f := .C) (by decide), setZN_putCarry_putDecimal]

namespace IgnoresDecimal

/-- An operand read, and then an operation on its value. -/
theorem afterLoad {k : Byte → State → State} (hk : ∀ v, IgnoresDecimal (k v)) (m : Source) :
    IgnoresDecimal (fun s => k (loadOperand m s).1 (loadOperand m s).2) := fun s b => by
  have hload : loadOperand m (s.setDecimal b) = ((loadOperand m s).1, (loadOperand m s).2.setDecimal b) := by
    rw [State.setDecimal, loadOperand_setP, State.setDecimal, loadOperand_p]
  simp only [hload, hk _ _ b]

/-! Loads and logic: a register and `SetZN`. -/

theorem loadA (v : Byte) : IgnoresDecimal (loadA v) := fun s b =>
  congrArg (s.setA v).setP (setZN_putDecimal v s.p b)

theorem loadX (v : Byte) : IgnoresDecimal (loadX v) := fun s b =>
  congrArg (s.setX v).setP (setZN_putDecimal v s.p b)

theorem loadY (v : Byte) : IgnoresDecimal (loadY v) := fun s b =>
  congrArg (s.setY v).setP (setZN_putDecimal v s.p b)

/-- AND, ORA and EOR, by their function (R181 to R183). -/
theorem combineA (f : Byte → Byte → Byte) (m : Source) :
    IgnoresDecimal (fun s => Machine.loadA (f (loadOperand m s).2.a (loadOperand m s).1) (loadOperand m s).2) :=
  afterLoad (k := fun v s => Machine.loadA (f s.a v) s) (fun v s b => loadA (f s.a v) s b) m

theorem bitTest (m : MemOperand) : IgnoresDecimal (bitTest m) :=
  afterLoad (k := fun v s => s.setP (bitFlags s.a v s.p))
    (fun v s b => congrArg s.setP (bitFlags_putDecimal s.a v s.p b)) (.mem m)

/-! Arithmetic and compares. -/

/-- The adder is binary (R188): of the flags it reads Carry alone. -/
theorem addWithCarry (w : Byte) : IgnoresDecimal (addWithCarry w) := fun s b => by
  have hcarry : flag .C (s.setDecimal b).p = flag .C s.p := flag_putDecimal (by decide) b s.p
  rw [Machine.addWithCarry, hcarry]
  exact congrArg (s.setA _).setP (adcFlags_putDecimal s.a w s.p b)

/-- CMP, CPX and CPY, by their register (R206 to R208). -/
theorem compare {reg : State → Byte} (hreg : ∀ s p, reg (s.setP p) = reg s) (m : Source) :
    IgnoresDecimal (fun s => (loadOperand m s).2.setP
      (compareFlags (reg (loadOperand m s).2) (loadOperand m s).1 (loadOperand m s).2.p)) :=
  afterLoad (k := fun v s => s.setP (compareFlags (reg s) v s.p)) (fun v s b => by
    have hbyte : reg (s.setDecimal b) = reg s := hreg s _
    simp only [hbyte]
    exact congrArg s.setP (setZN_putCarry_putDecimal _ s.p b _)) m

/-! Stores and read-modify-writes, in memory and in a register. -/

theorem writeByte (a : Word) (v : Byte) : IgnoresDecimal (writeByte a v) := fun s b => by
  rw [State.setDecimal, writeByte_setP, State.setDecimal, writeByte_p]

/-- A store of a register other than `P`. -/
theorem storeTo {reg : State → Byte} (hreg : ∀ s p, reg (s.setP p) = reg s) (m : MemOperand) :
    IgnoresDecimal (fun s => storeTo m (reg s) s) := fun s b => by
  have haddr : effAddr m (s.setDecimal b) = effAddr m s := effAddr_setP m _ s
  have hbyte : reg (s.setDecimal b) = reg s := hreg s _
  simp only [Machine.storeTo, haddr, hbyte]
  exact writeByte _ _ s b

theorem modifyMem {f : Config → Byte → Byte → Byte × Byte} (hf : ∀ cfg, StepIgnoresDecimal (f cfg))
    (m : MemOperand) : IgnoresDecimal (fun s => modifyMem m (f s.config) s) := fun s b => by
  simp only [State.setDecimal, modifyMem_eq, effAddr_setP, byteAt_setP, afterRead_setP, State.setP_config, State.setP_p,
    hf _ _ _ b, State.setP_setP, writeByte_setP]

theorem modifyReg {f : Config → Byte → Byte → Byte × Byte} (hf : ∀ cfg, StepIgnoresDecimal (f cfg))
    {reg : State → Byte} {set : State → Byte → State} (hreg : ∀ s p, reg (s.setP p) = reg s)
    (hset : ∀ s p v, set (s.setP p) v = (set s v).setP p) :
    IgnoresDecimal (fun s => (set s (f s.config (reg s) s.p).1).setP (f s.config (reg s) s.p).2) := fun s b => by
  simp only [State.setDecimal, State.setP_config, State.setP_p, hreg, hf _ _ _ b, hset, State.setP_setP]

/-! The stack. -/

theorem push8 (v : Byte) : IgnoresDecimal (push8 v) := fun s b => writeByte _ v (s.setSp (s.sp - 1)) b

theorem push16 (w : Word) : IgnoresDecimal (push16 w) := fun s b =>
  (congrArg (Machine.push8 (loByte w)) (push8 (hiByte w) s b)).trans (push8 (loByte w) _ b)

theorem pla : IgnoresDecimal (fun s => Machine.loadA (pop8 s).1 (pop8 s).2) := fun s b => by
  simp only [State.setDecimal, pop8_setP]
  exact loadA _ (pop8 s).2 b

/-! Flag writes, branches and jumps. -/

theorem writeFlag {f : Flag} (hf : f ≠ .D) (c : Bool) : IgnoresDecimal (writeFlag f c) := fun s b =>
  congrArg s.setP (putFlag_putDecimal hf b c s.p)

theorem branch {cond : Byte → Bool} (hcond : ∀ b p, cond (putFlag .D b p) = cond p) (off : Byte) :
    IgnoresDecimal (fun s => branch (cond s.p) off s) := fun s b => by
  have hp : cond (s.setDecimal b).p = cond s.p := hcond b s.p
  simp only [hp, Machine.branch]
  split <;> rfl

theorem branchSet {f : Flag} (hf : f ≠ .D) (off : Byte) :
    IgnoresDecimal (fun s => Machine.branch (flag f s.p) off s) := branch (cond := flag f) (flag_putDecimal hf) off

theorem branchClear {f : Flag} (hf : f ≠ .D) (off : Byte) :
    IgnoresDecimal (fun s => Machine.branch (!flag f s.p) off s) :=
  branch (cond := fun p => !flag f p) (fun b p => congrArg Bool.not (flag_putDecimal hf b p)) off

theorem jmpInd (ptr : Word) : IgnoresDecimal (fun s => (readJmpPointer ptr s).2.setPc (readJmpPointer ptr s).1) :=
  fun s b => by
    simp only [State.setDecimal, readJmpPointer, readPair_setP, State.setP_config, readPair_snd,
      State.setPc_p, afterRead_p]
    rfl

theorem jsr (addr : Word) : IgnoresDecimal (fun s => (Machine.push16 (s.pc - 1) s).setPc addr) := fun s b =>
  congrArg (fun t => t.setPc addr) (push16 (s.pc - 1) s b)

theorem rts : IgnoresDecimal (fun s => (pop16 s).2.setPc ((pop16 s).1 + 1)) := fun s b => by
  simp only [State.setDecimal, pop16_setP]
  rfl

end IgnoresDecimal

/-- Every instruction that neither writes Decimal nor pushes `P` ignores Decimal. -/
theorem exec_ignoresDecimal {i : Instr} (hD : .D ∉ flagsWritten i) (hphp : i ≠ .php) (hbrk : i ≠ .brk) :
    ∃ f, (∀ s, exec i s = .next (f s)) ∧ IgnoresDecimal f := by
  cases i
  case ldaImm | ldaZp | ldaZpx | ldaAbs | ldaAbx | ldaAby | ldaIzx | ldaIzy =>
    exact ⟨_, fun _ => rfl, .afterLoad (k := loadA) .loadA _⟩
  case ldxImm | ldxZp | ldxZpy | ldxAbs | ldxAby => exact ⟨_, fun _ => rfl, .afterLoad (k := loadX) .loadX _⟩
  case ldyImm | ldyZp | ldyZpx | ldyAbs | ldyAbx => exact ⟨_, fun _ => rfl, .afterLoad (k := loadY) .loadY _⟩
  case andImm | andZp | andZpx | andAbs | andAbx | andAby | andIzx | andIzy =>
    exact ⟨_, fun _ => rfl, .combineA (· &&& ·) _⟩
  case oraImm | oraZp | oraZpx | oraAbs | oraAbx | oraAby | oraIzx | oraIzy =>
    exact ⟨_, fun _ => rfl, .combineA (· ||| ·) _⟩
  case eorImm | eorZp | eorZpx | eorAbs | eorAbx | eorAby | eorIzx | eorIzy =>
    exact ⟨_, fun _ => rfl, .combineA (· ^^^ ·) _⟩
  case bitZp | bitAbs => exact ⟨_, fun _ => rfl, .bitTest _⟩
  case adcImm | adcZp | adcZpx | adcAbs | adcAbx | adcAby | adcIzx | adcIzy =>
    exact ⟨_, fun _ => rfl, .afterLoad (k := addWithCarry) .addWithCarry _⟩
  case sbcImm | sbcZp | sbcZpx | sbcAbs | sbcAbx | sbcAby | sbcIzx | sbcIzy =>
    exact ⟨_, fun _ => rfl, .afterLoad (k := fun v => addWithCarry (~~~v)) (fun v => .addWithCarry (~~~v)) _⟩
  case cmpImm | cmpZp | cmpZpx | cmpAbs | cmpAbx | cmpAby | cmpIzx | cmpIzy =>
    exact ⟨_, fun _ => rfl, .compare (reg := State.a) (fun _ _ => rfl) _⟩
  case cpxImm | cpxZp | cpxAbs => exact ⟨_, fun _ => rfl, .compare (reg := State.x) (fun _ _ => rfl) _⟩
  case cpyImm | cpyZp | cpyAbs => exact ⟨_, fun _ => rfl, .compare (reg := State.y) (fun _ _ => rfl) _⟩
  case staZp | staZpx | staAbs | staAbx | staAby | staIzx | staIzy =>
    exact ⟨_, fun _ => rfl, .storeTo (reg := State.a) (fun _ _ => rfl) _⟩
  case stxZp | stxZpy | stxAbs => exact ⟨_, fun _ => rfl, .storeTo (reg := State.x) (fun _ _ => rfl) _⟩
  case styZp | styZpx | styAbs => exact ⟨_, fun _ => rfl, .storeTo (reg := State.y) (fun _ _ => rfl) _⟩
  case incZp | incZpx | incAbs | incAbx =>
    exact ⟨_, fun _ => rfl, .modifyMem (fun _ => stepIgnoresDecimal_inc8) _⟩
  case decZp | decZpx | decAbs | decAbx =>
    exact ⟨_, fun _ => rfl, .modifyMem (fun cfg => stepIgnoresDecimal_dec8 cfg.decIncCarry) _⟩
  case aslZp | aslZpx | aslAbs | aslAbx | lsrZp | lsrZpx | lsrAbs | lsrAbx | rolZp | rolZpx | rolAbs | rolAbx | rorZp |
      rorZpx | rorAbs | rorAbx =>
    exact ⟨_, fun _ => rfl, .modifyMem (fun cfg => stepIgnoresDecimal_shift8 cfg.rorInsert _) _⟩
  case aslAcc | lsrAcc | rolAcc | rorAcc =>
    exact ⟨_, fun _ => rfl, .modifyReg (reg := State.a) (set := State.setA)
      (fun cfg => stepIgnoresDecimal_shift8 cfg.rorInsert _) (fun _ _ => rfl) (fun _ _ _ => rfl)⟩
  case inx =>
    exact ⟨_, fun _ => rfl, .modifyReg (reg := State.x) (set := State.setX) (fun _ => stepIgnoresDecimal_inc8)
      (fun _ _ => rfl) (fun _ _ _ => rfl)⟩
  case iny =>
    exact ⟨_, fun _ => rfl, .modifyReg (reg := State.y) (set := State.setY) (fun _ => stepIgnoresDecimal_inc8)
      (fun _ _ => rfl) (fun _ _ _ => rfl)⟩
  case dex =>
    exact ⟨_, fun _ => rfl, .modifyReg (reg := State.x) (set := State.setX)
      (fun cfg => stepIgnoresDecimal_dec8 cfg.decIncCarry) (fun _ _ => rfl) (fun _ _ _ => rfl)⟩
  case dey =>
    exact ⟨_, fun _ => rfl, .modifyReg (reg := State.y) (set := State.setY)
      (fun cfg => stepIgnoresDecimal_dec8 cfg.decIncCarry) (fun _ _ => rfl) (fun _ _ _ => rfl)⟩
  case tax => exact ⟨_, fun _ => rfl, fun s b => IgnoresDecimal.loadX s.a s b⟩
  case tay => exact ⟨_, fun _ => rfl, fun s b => IgnoresDecimal.loadY s.a s b⟩
  case txa => exact ⟨_, fun _ => rfl, fun s b => IgnoresDecimal.loadA s.x s b⟩
  case tya => exact ⟨_, fun _ => rfl, fun s b => IgnoresDecimal.loadA s.y s b⟩
  case tsx => exact ⟨_, fun _ => rfl, fun s b => IgnoresDecimal.loadX s.sp s b⟩
  case txs | jmpAbs | nop => exact ⟨_, fun _ => rfl, fun _ _ => rfl⟩
  case pha => exact ⟨_, fun _ => rfl, fun s b => IgnoresDecimal.push8 s.a s b⟩
  case pla => exact ⟨_, fun _ => rfl, .pla⟩
  case bmi | bvs | bcs | beq => exact ⟨_, fun _ => rfl, .branchSet (by decide) _⟩
  case bpl | bvc | bcc | bne => exact ⟨_, fun _ => rfl, .branchClear (by decide) _⟩
  case jmpInd => exact ⟨_, fun _ => rfl, .jmpInd _⟩
  case jsr => exact ⟨_, fun _ => rfl, .jsr _⟩
  case rts => exact ⟨_, fun _ => rfl, .rts⟩
  case clc | sec | cli | sei | clv => exact ⟨_, fun _ => rfl, .writeFlag (by decide) _⟩
  case php => exact absurd rfl hphp
  case brk => exact absurd rfl hbrk
  case cld | sed | plp | rti => exact absurd (by decide) hD

/-! ### The instructions that write Decimal, and those that push `P` -/

/-- A pull of `P` replaces Decimal with the rest of it (R173). -/
theorem popP_setDecimal (s : State) (b : Bool) : popP (s.setDecimal b) = popP s := by
  rw [popP, State.setDecimal, pop8_setP]
  rfl

/-- What writes Decimal does not read it. -/
theorem exec_setDecimal_of_writesDecimal {i : Instr} (hD : .D ∈ flagsWritten i) (s : State) (b : Bool) :
    exec i (s.setDecimal b) = exec i s := by
  cases i
  case cld => exact congrArg (Host.Outcome.next ∘ s.setP) (putDecimal_putDecimal b false s.p)
  case sed => exact congrArg (Host.Outcome.next ∘ s.setP) (putDecimal_putDecimal b true s.p)
  case plp => exact congrArg Host.Outcome.next (popP_setDecimal s b)
  case rti => simp only [exec, execRti, returnFromException, popP_setDecimal]
  all_goals simp [flagsWritten] at hD

/-- A push of `P` hides Decimal if the mask has bit 3 (R173). -/
theorem pushP_setDecimal {s : State} (hmask : s.config.forceMask.getLsbD 3 = true) (b : Bool) :
    pushP (s.setDecimal b) = (pushP s).setDecimal b := by
  have hforced : forcedOnPush (s.setDecimal b).config.forceMask (s.setDecimal b).p =
      forcedOnPush s.config.forceMask s.p := forcedOnPush_putDecimal hmask b s.p
  rw [pushP, hforced]
  exact IgnoresDecimal.push8 _ s b

theorem takeException_setDecimal {s : State} (hmask : s.config.forceMask.getLsbD 3 = true) (ret : Word) {vector : Word}
    (h : region vector = .rom) (h' : region (vector + 1) = .rom) {set : Byte} (hset : flag .D set = false) (b : Bool) :
    takeException ret vector set (s.setDecimal b) = (takeException ret vector set s).setDecimal b := by
  have hconfig : (push16 ret s).config = s.config := by simp [push16]
  rw [takeException_eq _ _ _ h h', takeException_eq _ _ _ h h', IgnoresDecimal.push16 ret s b,
    pushP_setDecimal (hconfig ▸ hmask) b]
  simp only [State.setDecimal, wordAt, byteAt_setP, State.setP_p, putDecimal_or hset]
  rfl

theorem exec_brk_setDecimal {s : State} (hmask : s.config.forceMask.getLsbD 3 = true) (b : Bool) :
    ∃ t, exec .brk s = .next t ∧ exec .brk (s.setDecimal b) = .next (t.setDecimal b) := by
  have hI : flag .I (s.setDecimal b).p = flag .I s.p := flag_putDecimal (by decide) b s.p
  refine ⟨_, rfl, ?_⟩
  simp only [exec, execBrk, hI]
  split
  · rfl
  · exact congrArg Host.Outcome.next (takeException_setDecimal hmask _ (by decide) (by decide) (by decide) b)

/-- Decimal is nothing to an instruction that does not write it, and what it may push of `P` hides it. -/
theorem exec_setDecimal {i : Instr} (hD : .D ∉ flagsWritten i) {s : State}
    (hmask : s.config.forceMask.getLsbD 3 = true ∨ (i ≠ .php ∧ i ≠ .brk)) (b : Bool) :
    ∃ t, exec i s = .next t ∧ exec i (s.setDecimal b) = .next (t.setDecimal b) := by
  by_cases hphp : i = .php
  · subst hphp
    exact ⟨pushP s, rfl, congrArg Host.Outcome.next (pushP_setDecimal (hmask.resolve_right fun ⟨hne, _⟩ => hne rfl) b)⟩
  by_cases hbrk : i = .brk
  · subst hbrk
    exact exec_brk_setDecimal (hmask.resolve_right fun ⟨_, hne⟩ => hne rfl) b
  obtain ⟨f, hexec, hf⟩ := exec_ignoresDecimal hD hphp hbrk
  exact ⟨f s, hexec s, by rw [hexec, hf s b]⟩

/-- Settles O52: an instruction that writes Decimal does not read it, every other one ignores it, and what a pull
restores has the bits of the mask clear. -/
theorem decimalIsUnobservable : Obligations.DecimalIsUnobservable := by
  unfold Obligations.DecimalIsUnobservable
  refine ⟨fun i s t b hmask hexec => ?_, fun s t hexec => ?sed, fun s t hexec => ?cld,
    fun i s t hi hmask hexec => ?pull⟩
  · by_cases hD : .D ∈ flagsWritten i
    · rw [if_pos hD, ← hexec]
      exact exec_setDecimal_of_writesDecimal hD s b
    · obtain ⟨t', ht', hdecimal⟩ := exec_setDecimal hD hmask b
      cases ht'.symm.trans hexec
      rw [if_neg hD]
      exact hdecimal
  case sed | cld =>
    cases hexec
    exact flag_putFlag_same .D _ s.p
  case pull =>
    obtain rfl | rfl := hi <;> cases hexec <;> exact flag_D_restoredOnPop hmask _

end Sys2Proof.Machine
end

section
/-! PROOFS. The family of spec/45_shift_rotate.md: nine ROL A in a row (O54), and every form of ASL, LSR, ROL and ROR
(O53). ROL A turns Carry and `A`, read as one 9-bit word, to the right by one bit; nine such turns are a full one. -/

namespace Sys2Proof.Machine

/-! ### Rotation of a word of any width -/

/-- A rotation to the right by `r` fetches each bit from `r` places above it, round the word. -/
theorem getLsbD_rotateRight_eq_mod {n : Nat} (w : BitVec n) (r : Nat) {i : Nat} (hi : i < n) :
    (w.rotateRight r).getLsbD i = w.getLsbD ((i + r) % n) := by
  have hr : r % n < n := Nat.mod_lt r (by omega)
  rw [BitVec.getLsbD_rotateRight, ← Nat.add_mod_mod i r n]
  generalize r % n = k at hr ⊢
  by_cases hwrap : i < n - k
  · rw [decide_eq_true hwrap, cond_true, Nat.mod_eq_of_lt (by omega), Nat.add_comm]
  · have hmod : (i + k) % n = i - (n - k) := by
      rw [Nat.mod_eq_sub_mod (by omega), Nat.mod_eq_of_lt (by omega)]
      omega
    rw [decide_eq_false hwrap, cond_false, decide_eq_true hi, Bool.true_and, hmod]

theorem getLsbD_iterate_rotateRight_one {n : Nat} (w : BitVec n) (k : Nat) {i : Nat} (hi : i < n) :
    ((BitVec.rotateRight · 1)^[k] w).getLsbD i = w.getLsbD ((i + k) % n) := by
  induction k generalizing i with
  | zero => rw [Function.iterate_zero_apply, Nat.add_zero, Nat.mod_eq_of_lt hi]
  | succ k ih =>
    rw [Function.iterate_succ_apply', getLsbD_rotateRight_eq_mod _ 1 hi, ih (Nat.mod_lt _ (by omega)),
      Nat.mod_add_mod, Nat.add_assoc, Nat.add_comm 1 k]

/-- A word of `n` bits is back after `n` rotations by one. -/
theorem iterate_rotateRight_one_width {n : Nat} (w : BitVec n) : (BitVec.rotateRight · 1)^[n] w = w :=
  BitVec.eq_of_getLsbD_eq fun i hi => by
    rw [getLsbD_iterate_rotateRight_one w n hi, Nat.add_mod_right, Nat.mod_eq_of_lt hi]

/-! ### ROL A as a rotation of Carry and `A` -/

/-- Bit by bit, ROL's result is the byte one place down with the old Carry at the top (R198). -/
theorem getLsbD_shiftResult_rol (ins : RorInsert) (v : Byte) (c : Bool) (i : Nat) :
    (shiftResult ins .rol v c).getLsbD i = if i = 7 then c else v.getLsbD (i + 1) := by
  have hcarry : carryByte c <<< 7 = if c then BitVec.twoPow 8 7 else 0 := by cases c <;> rfl
  rw [shiftResult, BitVec.getLsbD_or, BitVec.getLsbD_ushiftRight, hcarry, Nat.add_comm 1]
  by_cases hi : i = 7
  · subst hi
    cases c <;> simp
  · cases c <;> simp [BitVec.getLsbD_twoPow, hi, Ne.symm hi]

/-- Carry and `A` as one word, Carry at the top: what R198 calls the nine bits of ROL A. -/
def carryAndA (s : State) : BitVec 9 := .cons (flag .C s.p) s.a

theorem eq_of_carryAndA_eq {s t : State} (h : carryAndA s = carryAndA t) :
    s.a = t.a ∧ flag .C s.p = flag .C t.p := by
  constructor
  · simpa [carryAndA] using congrArg (BitVec.setWidth 8) h
  · simpa [carryAndA] using congrArg BitVec.msb h

/-- ROL A is the 9-bit rotation to the right by one (R198). -/
theorem carryAndA_semiconj_rol_acc : Function.Semiconj carryAndA (shift .rol .acc) (BitVec.rotateRight · 1) := by
  intro s
  refine BitVec.eq_of_getLsbD_eq fun i hi => ?_
  have hnew : carryAndA (shift .rol .acc s) =
      .cons (s.a.getLsbD 0) (shiftResult s.config.rorInsert .rol s.a (flag .C s.p)) :=
    congrArg (BitVec.cons · _) (flag_C_setZN_putCarry ..)
  rw [hnew, getLsbD_rotateRight_eq_mod _ 1 hi, carryAndA, BitVec.getLsbD_cons, BitVec.getLsbD_cons,
    getLsbD_shiftResult_rol]
  obtain h | rfl | rfl : i < 7 ∨ i = 7 ∨ i = 8 := by omega
  · rw [Nat.mod_eq_of_lt (by omega), if_neg (by omega), if_neg (by omega), if_neg (by omega)]
  · rfl
  · rfl

/-- Shifts and rotates of the accumulator, however many, change nothing but `A` and `P`. -/
theorem iterate_shift_acc_eq (k : ShiftKind) (n : Nat) (s : State) :
    ∃ a p, (shift k .acc)^[n] s = (s.setA a).setP p := by
  induction n with
  | zero => exact ⟨s.a, s.p, rfl⟩
  | succ n ih =>
    obtain ⟨a, p, h⟩ := ih
    rw [Function.iterate_succ_apply', h]
    exact ⟨_, _, rfl⟩

/-- An instruction that is a function of states is repeated as that function is. -/
theorem repeatExec_eq_iterate {i : Instr} {f : State → State} (h : ∀ s, exec i s = .next (f s)) (n : Nat)
    (s : State) : repeatExec i n s = some (f^[n] s) := by
  induction n generalizing s with
  | zero => rfl
  | succ n ih => simp only [repeatExec, h, ih, Function.iterate_succ_apply]

/-- Settles O54: nine ROL A turn the nine bits of Carry and `A` once round, and none touches another register or RAM. -/
theorem nineRolRestores : Obligations.NineRolRestores := by
  unfold Obligations.NineRolRestores
  intro s
  have hround : carryAndA ((shift .rol .acc)^[9] s) = carryAndA s := calc
    carryAndA ((shift .rol .acc)^[9] s) = (BitVec.rotateRight · 1)^[9] (carryAndA s) :=
      carryAndA_semiconj_rol_acc.iterate_right 9 s
    _ = carryAndA s := iterate_rotateRight_one_width _
  obtain ⟨ha, hcarry⟩ := eq_of_carryAndA_eq hround
  obtain ⟨a, p, hframe⟩ := iterate_shift_acc_eq .rol 9 s
  refine ⟨_, repeatExec_eq_iterate (fun _ => rfl) 9 s, ha, hcarry, ?_⟩
  rw [hframe]
  exact ⟨rfl, rfl, rfl, rfl⟩

/-! ### The forms of the four instructions -/

theorem shiftResult_rol (ins : RorInsert) (v : Byte) (c : Bool) :
    shiftResult ins .rol v c = (v >>> 1) ||| (if c then 0x80 else 0x00) := by
  cases c <;> rfl

/-- ROR's result, one value of `ROR_INSERT` against the other (R199, R11). -/
theorem shiftResult_ror (ins : RorInsert) (v : Byte) (c : Bool) :
    shiftResult ins .ror v c = (if ins = .or then v >>> 1 else (v >>> 1) &&& 0xFE) ||| (if c then 0x01 else 0x00) := by
  cases ins <;> rfl

/-- `i` is the shift or rotate `k` at the place `m`, and completes (R195). -/
def RunsShift (k : ShiftKind) (m : Place) (i : Instr) : Prop := ∀ s, exec i s = .next (shift k m s)

/-- A shift or rotate replaces the byte in its place as its kind's result says (R195, R119). -/
theorem RunsShift.shiftsBy {k : ShiftKind} {r : Config → Byte → Bool → Byte}
    (hresult : ∀ cfg v c, shiftResult cfg.rorInsert k v c = r cfg v c) {m : Place} {i : Instr} (h : RunsShift k m i) :
    ShiftsBy r m i := fun s => by
  rw [h, shift]
  cases m with
  | acc => rw [modify, shift8, hresult]
  | mem o => rw [modify, modifyMem_eq, shift8, hresult]

theorem ForShiftForms.imp {acc : Instr} {zp zpx : Byte → Instr} {abs abx : Word → Instr} {P Q : Place → Instr → Prop}
    (hPQ : ∀ {m i}, P m i → Q m i) (h : ForShiftForms acc zp zpx abs abx P) : ForShiftForms acc zp zpx abs abx Q :=
  let ⟨hacc, hzp, hzpx, habs, habx⟩ := h
  ⟨hPQ hacc, fun b => hPQ (hzp b), fun b => hPQ (hzpx b), fun w => hPQ (habs w), fun w => hPQ (habx w)⟩

theorem aslForms_runsShift : ForShiftForms .aslAcc .aslZp .aslZpx .aslAbs .aslAbx (RunsShift .asl) :=
  ⟨fun _ => rfl, fun _ _ => rfl, fun _ _ => rfl, fun _ _ => rfl, fun _ _ => rfl⟩

theorem lsrForms_runsShift : ForShiftForms .lsrAcc .lsrZp .lsrZpx .lsrAbs .lsrAbx (RunsShift .lsr) :=
  ⟨fun _ => rfl, fun _ _ => rfl, fun _ _ => rfl, fun _ _ => rfl, fun _ _ => rfl⟩

theorem rolForms_runsShift : ForShiftForms .rolAcc .rolZp .rolZpx .rolAbs .rolAbx (RunsShift .rol) :=
  ⟨fun _ => rfl, fun _ _ => rfl, fun _ _ => rfl, fun _ _ => rfl, fun _ _ => rfl⟩

theorem rorForms_runsShift : ForShiftForms .rorAcc .rorZp .rorZpx .rorAbs .rorAbx (RunsShift .ror) :=
  ⟨fun _ => rfl, fun _ _ => rfl, fun _ _ => rfl, fun _ _ => rfl, fun _ _ => rfl⟩

/-- Settles O53: each form is `shift` of its kind at its place, and ASL and LSR shift by definition; the results of ROL
and ROR are `shiftResult_rol` and `shiftResult_ror`. -/
theorem shiftsGoRight : Obligations.ShiftsGoRight := by
  unfold Obligations.ShiftsGoRight
  refine ⟨fun _ _ => rfl, fun _ _ => rfl, fun _ _ => rfl, fun _ _ => rfl, ?asl, ?lsr, ?rol, ?ror⟩
  case asl => exact aslForms_runsShift.imp (RunsShift.shiftsBy fun _ _ _ => rfl)
  case lsr => exact lsrForms_runsShift.imp (RunsShift.shiftsBy fun _ _ _ => rfl)
  case rol => exact rolForms_runsShift.imp (RunsShift.shiftsBy fun _ => shiftResult_rol _)
  case ror => exact rorForms_runsShift.imp (RunsShift.shiftsBy fun _ => shiftResult_ror _)

end Sys2Proof.Machine
end

section
/-! PROOFS. The family of spec/46_compare.md: every form of CMP, CPX and CPY (O55). -/

namespace Sys2Proof.Machine

/-! ### The three flags of a compare -/

/-- The Carry of a compare is neither of the two flags `SetZN` writes after it (R205). -/
theorem flag_C_compareFlags (r v p : Byte) : flag .C (compareFlags r v p) = decide (v.toNat ≤ r.toNat) :=
  flag_C_setZN_putCarry ..

/-- The difference modulo 256 is zero exactly where the bytes are equal (R205). -/
theorem flag_Z_compareFlags (r v p : Byte) : flag .Z (compareFlags r v p) = decide (r = v) := calc
  flag .Z (compareFlags r v p) = decide (r - v = 0) := flag_Z_setZN ..
  _ = decide (r = v) := decide_eq_decide.2 sub_eq_zero

/-- Negative as a bound on the difference modulo 256 (R205). -/
theorem flag_N_compareFlags (r v p : Byte) :
    flag .N (compareFlags r v p) = decide (128 ≤ (r.toNat + 256 - v.toNat) % 256) := by
  have hdiff : (r - v).toNat = (r.toNat + 256 - v.toNat) % 256 := by bv_omega
  rw [compareFlags, flag_N_setZN, hdiff]

/-! ### The instructions -/

/-- A compare takes the register and the `P` its read leaves. No read changes `P` (R85), and none changes the register
(`hreg`): they are those before it. -/
theorem comparesWith_of_exec {reg : State → Byte} {m : Source} {i : Instr}
    (hreg : ∀ s, reg (loadOperand m s).2 = reg s)
    (hexec : ∀ s, exec i s = .next ((loadOperand m s).2.setP
      (compareFlags (reg (loadOperand m s).2) (loadOperand m s).1 (loadOperand m s).2.p))) : ComparesWith reg m i := by
  intro s
  refine ⟨_, hexec s, ?_⟩
  rw [hreg, loadOperand_p]
  exact ⟨rfl, flag_C_compareFlags .., flag_Z_compareFlags .., flag_N_compareFlags ..,
    fun f hC hZ hN => keepsFlags_setZN_putCarry _ s.p _ f (by simp [hC, hZ, hN])⟩

/-- Settles O55: each form sets `compareFlags` of its register and its operand, as `comparesWith_of_exec` takes it. -/
theorem compares : Obligations.Compares := by
  unfold Obligations.Compares ForReadForms ForShortForms
  refine ⟨fun _ _ => rfl, fun _ _ => rfl, ⟨?cmpImm, ?cmpZp, ?cmpZpx, ?cmpAbs, ?cmpAbx, ?cmpAby, ?cmpIzx, ?cmpIzy⟩,
    ⟨?cpxImm, ?cpxZp, ?cpxAbs⟩, ?cpyImm, ?cpyZp, ?cpyAbs⟩
  case cmpImm | cmpZp | cmpZpx | cmpAbs | cmpAbx | cmpAby | cmpIzx | cmpIzy =>
    exact fun _ => comparesWith_of_exec (loadOperand_a _) fun _ => rfl
  case cpxImm | cpxZp | cpxAbs => exact fun _ => comparesWith_of_exec (loadOperand_x _) fun _ => rfl
  case cpyImm | cpyZp | cpyAbs => exact fun _ => comparesWith_of_exec (loadOperand_y _) fun _ => rfl

end Sys2Proof.Machine
end

section
/-! PROOFS. The family of spec/47_branch.md: the eight branches (O56). -/

namespace Sys2Proof.Machine

/-- A branch on a set flag; sign extension is the offset as a signed number (R118, R210). -/
theorem branch_flag_set (f : Flag) (off : Byte) (s : State) :
    branch (flag f s.p) off s = if flag f s.p = true then s.setPc (s.pc + BitVec.ofInt 16 off.toInt) else s := rfl

/-- A branch on a clear flag (R118, R210). -/
theorem branch_flag_clear (f : Flag) (off : Byte) (s : State) :
    branch (!flag f s.p) off s = if flag f s.p = false then s.setPc (s.pc + BitVec.ofInt 16 off.toInt) else s := by
  cases h : flag f s.p with
  | true => rfl
  | false => rfl

/-- Settles O56: each branch is taken on its flag set or clear. -/
theorem branches : Obligations.Branches := by
  unfold Obligations.Branches
  refine ⟨fun _ => rfl, fun s off => ⟨?bpl, ?bmi, ?bvc, ?bvs, ?bcc, ?bcs, ?bne, ?beq⟩⟩
  case bpl | bvc | bcc | bne => exact congrArg Host.Outcome.next (branch_flag_clear _ off s)
  case bmi | bvs | bcs | beq => exact congrArg Host.Outcome.next (branch_flag_set _ off s)

end Sys2Proof.Machine
end

section
/-! PROOFS. The family of spec/48_jump_call.md: JMP, JSR and RTS (O57), and the return from a call (O58). -/

namespace Sys2Proof.Machine

/-! ### Words on the stack -/

/-- A push moves the slots of the next pushes on by one (R170). -/
theorem pushAddr_push8 (v : Byte) (s : State) (k : Nat) : pushAddr (push8 v s) k = pushAddr s (k + 1) := by
  have hsp : s.sp - 1 - BitVec.ofNat 8 k = s.sp - BitVec.ofNat 8 (k + 1) := by
    rw [sub_sub, add_comm, BitVec.ofNat_add]
    rfl
  rw [pushAddr, push8_sp, push8_config, hsp, pushAddr]

/-- `Push16` as two writes of RAM, the high byte first (R172). -/
theorem push16_eq_pushAddr (w : Word) (s : State) :
    push16 w s = (s.setSp (s.sp - 2)).setRam
      ((s.ram.write (pushAddr s 0).toNat (hiByte w)).write (pushAddr s 1).toNat (loByte w)) := by
  have hsp : s.sp - 1 - 1 = s.sp - 2 := by
    rw [sub_sub]
    rfl
  rw [push16, push8_eq_pushAddr (loByte w), pushAddr_push8, push8_sp, push8_eq_pushAddr, hsp]
  rfl

/-- `Pop16` as two reads of RAM, the low byte first (R172). -/
theorem pop16_eq_popAddr (s : State) :
    pop16 s = (mkWord (s.ram.read (popAddr s 1).toNat) (s.ram.read (popAddr s 0).toNat), s.setSp (s.sp + 2)) := by
  have hsp : s.sp + 1 + 1 = s.sp + 2 := by
    rw [add_assoc]
    rfl
  rw [← byteAt_ram (region_popAddr s 1), ← byteAt_ram (region_popAddr s 0), ← pop16_fst, ← hsp]
  rfl

/-- All a pull of a word depends on is the parameters, `SP` and RAM: in any state that has these three as the push of
`w` left them it gives `w` and the old `SP` (R172). -/
theorem pop16_after_push16 {w : Word} {s t : State} (hw : s.ram.wf) (hconfig : t.config = (push16 w s).config)
    (hsp : t.sp = (push16 w s).sp) (hram : t.ram = (push16 w s).ram) : pop16 t = (w, t.setSp s.sp) := by
  obtain ⟨hword, hback⟩ := pop16_push16 w s hw
  have hfst : (pop16 t).1 = w := by
    rw [← hword]
    simp only [pop16_eq_ram, hconfig, hsp, hram]
  have hsnd : (pop16 t).2 = t.setSp s.sp := by
    rw [← hback, pop16_snd, pop16_snd, hsp]
    rfl
  exact Prod.ext hfst hsnd

/-! ### The JMP pointer -/

/-- The address of a pointer's high byte as a number, for both values of `JMP_IND_PAGE_BUG` (R11, R115). -/
theorem toNat_jmpPointerHigh (bug : Bool) (ptr : Word) :
    (jmpPointerHigh bug ptr).toNat =
      if bug then ptr.toNat / 256 * 256 + (ptr.toNat + 1) % 256 else (ptr.toNat + 1) % 65536 := by
  cases bug with
  | false => exact BitVec.toNat_add ptr 1
  | true =>
    have hhi : (hiByte ptr).toNat = ptr.toNat / 256 := by
      have := ptr.isLt
      rw [hiByte, BitVec.toNat_setWidth, BitVec.toNat_ushiftRight, Nat.shiftRight_eq_div_pow]
      omega
    have hlo : (loByte ptr + 1).toNat = (ptr.toNat + 1) % 256 := by
      rw [BitVec.toNat_add, loByte, BitVec.toNat_setWidth]
      exact Nat.mod_add_mod ptr.toNat 256 1
    rw [jmpPointerHigh, if_pos rfl, if_pos rfl, toNat_mkWord, hhi, hlo]

/-- The word at a JMP pointer: reading its low byte does not disturb the high one, which is at another address. -/
theorem toNat_readJmpPointer (ptr : Word) (s : State) :
    (readJmpPointer ptr s).1.toNat =
      (byteAt s (jmpPointerHigh s.config.jmpIndPageBug ptr)).toNat * 256 + (byteAt s ptr).toNat := by
  have hhi : byteAt (afterRead ptr s) (jmpPointerHigh s.config.jmpIndPageBug ptr) =
      byteAt s (jmpPointerHigh s.config.jmpIndPageBug ptr) :=
    byteAt_afterRead s fun h9 hptr => jmpPointerHigh_ne _ ptr (h9.trans hptr.symm)
  rw [readJmpPointer, readPair, toNat_mkWord, hhi]

/-! ### The instructions -/

/-- JSR pushes the address of its last byte and jumps (R221). -/
theorem exec_jsr (w : Word) (s : State) : exec (.jsr w) s = .next ((push16 (s.pc - 1) s).setPc w) := rfl

/-- RTS goes to the pulled word plus one (R222). -/
theorem exec_rts (s : State) : exec .rts s = .next ((pop16 s).2.setPc ((pop16 s).1 + 1)) := rfl

/-- Settles O57: JMP IND reads at `jmpPointerHigh`, which is the `h` of the statement; JSR is `push16_eq_pushAddr`, RTS
`pop16_eq_popAddr`. -/
theorem jumpsCallsReturns : Obligations.JumpsCallsReturns := by
  unfold Obligations.JumpsCallsReturns
  refine ⟨fun _ => rfl, fun s w => ⟨rfl, fun h hh => ?jmpInd, ?jsr, ?rts⟩⟩
  case jmpInd =>
    obtain rfl : h = jmpPointerHigh s.config.jmpIndPageBug w :=
      BitVec.eq_of_toNat_eq (hh.trans (toNat_jmpPointerHigh _ w).symm)
    exact ⟨_, rfl, rfl, toNat_readJmpPointer w s⟩
  case jsr =>
    rw [exec_jsr, push16_eq_pushAddr]
    rfl
  case rts =>
    refine ⟨_, exec_rts s, ?_⟩
    rw [pop16_eq_popAddr, State.setPc_pc, BitVec.toNat_add, toNat_mkWord]
    exact ⟨rfl, rfl⟩

/-- Settles O58: RTS pulls what JSR pushed, the address before the next instruction's. -/
theorem callThenReturn : Obligations.CallThenReturn := by
  unfold Obligations.CallThenReturn
  intro s w hw
  refine ⟨_, exec_jsr w s, rfl, fun t' hconfig hsp hram => ⟨_, exec_rts t', ?_⟩⟩
  rw [State.setPc_config] at hconfig
  rw [State.setPc_sp] at hsp
  rw [State.setPc_ram] at hram
  rw [pop16_after_push16 hw hconfig hsp hram]
  exact ⟨BitVec.sub_add_cancel s.pc 1, rfl, hram, rfl, rfl⟩

end Sys2Proof.Machine
end

section
/-! PROOFS. The family of spec/49_flags_brk_rti.md: the flag instructions and NOP (O59), RTI (O60), and BRK (O27), with
the entry into a handler that BRK shares with the interrupts (R259). -/

namespace Sys2Proof.Machine

/-! ### The flag instructions -/

theorem writeFlag_false (f : Flag) (s : State) : writeFlag f false s = s.setP (s.p &&& ~~~flagMask f) := rfl

theorem writeFlag_true (f : Flag) (s : State) : writeFlag f true s = s.setP (s.p ||| flagMask f) := rfl

/-- Settles O59: each clears or sets the bit of its flag, whose mask the statement writes as a numeral. -/
theorem flagInstructionsAndNop : Obligations.FlagInstructionsAndNop := by
  unfold Obligations.FlagInstructionsAndNop
  refine ⟨rfl, fun s => ⟨?clc, ?sec, ?cli, ?sei, ?clv, ?cld, ?sed, ?nop⟩⟩
  case clc | cli | clv | cld => exact congrArg Host.Outcome.next (writeFlag_false _ s)
  case sec | sei | sed => exact congrArg Host.Outcome.next (writeFlag_true _ s)
  case nop => rfl

/-! ### Leaving a handler -/

/-- Returning from an exception as three reads of RAM: the flags, then the low and the high byte of `PC`, with no
`+1` (R238, R260). -/
theorem returnFromException_eq_popAddr (s : State) :
    returnFromException s =
      ((s.setSp (s.sp + 3)).setPc
        (mkWord (s.ram.read (popAddr s 2).toNat) (s.ram.read (popAddr s 1).toNat))).setP
          (s.ram.read (popAddr s 0).toNat &&& ~~~s.config.forceMask) := by
  have hsp : s.sp + 1 + 1 + 1 = s.sp + 3 := by
    rw [add_assoc, add_assoc]
    rfl
  rw [returnFromException_eq, hsp, pop16_setSp_fst, byteAt_ram (region_popAddr s 2), byteAt_ram (region_popAddr s 1),
    pop8_eq_popAddr]
  rfl

/-- Settles O60: RTI is `returnFromException`. -/
theorem returnFromInterrupt : Obligations.ReturnFromInterrupt := by
  unfold Obligations.ReturnFromInterrupt
  refine ⟨rfl, fun s => ⟨returnFromException s, rfl, ?_⟩⟩
  rw [returnFromException_eq_popAddr, State.setP_pc, State.setPc_pc, toNat_mkWord]
  exact ⟨rfl, rfl⟩

/-! ### Entering a handler -/

/-- The byte at `b` after a push (R170). -/
theorem byteAt_push8_pushAddr (v : Byte) {s : State} (hw : s.ram.wf) (b : Word) :
    byteAt (push8 v s) b = if b = pushAddr s 0 then v else byteAt s b := by
  rw [byteAt_push8 v s b hw, pushAddr_zero]

/-- The bytes an exception entry leaves: the return address, high byte first, and the forced flags in the three slots
it pushes to, every other byte as before (R259, R173). -/
theorem byteAt_pushP_push16 (ret : Word) {s : State} (hw : s.ram.wf) (b : Word) :
    byteAt (pushP (push16 ret s)) b =
      if b = pushAddr s 2 then s.p ||| s.config.forceMask
      else if b = pushAddr s 1 then loByte ret
      else if b = pushAddr s 0 then hiByte ret
      else byteAt s b := by
  have hw1 : (push8 (hiByte ret) s).ram.wf := push8_ram_wf _ hw
  rw [pushP, push16, byteAt_push8_pushAddr _ (push8_ram_wf _ hw1), byteAt_push8_pushAddr _ hw1,
    byteAt_push8_pushAddr _ hw]
  simp only [pushAddr_push8, Nat.reduceAdd, push8_p, push8_config, forcedOnPush]

/-- The slots of one exception entry are apart, also where they wrap in the stack page (R178). -/
theorem pushAddr_ne (s : State) {j k : Nat} (h : BitVec.ofNat 8 j ≠ BitVec.ofNat 8 k) :
    pushAddr s j ≠ pushAddr s k := by
  intro he
  have hslot := stackAddr_inj he
  apply h
  cases hd : s.config.stackDiscipline with
  | predecPostinc =>
    simp only [hd, pushSlot] at hslot
    exact sub_right_injective (sub_left_injective hslot)
  | postdecPreinc =>
    simp only [hd, pushSlot] at hslot
    exact sub_right_injective hslot

/-- Every exception entry is that of R259, whatever flags it sets. -/
theorem enteredFrom_takeException (ret : Word) {vector : Word} (set : Byte) {s : State} (hw : s.ram.wf)
    (h : region vector = .rom) (h' : region (vector + 1) = .rom) :
    EnteredFrom s (takeException ret vector set s) ret vector := by
  have h01 : pushAddr s 0 ≠ pushAddr s 1 := pushAddr_ne s (by decide)
  have h02 : pushAddr s 0 ≠ pushAddr s 2 := pushAddr_ne s (by decide)
  have h12 : pushAddr s 1 ≠ pushAddr s 2 := pushAddr_ne s (by decide)
  have hsp : (pushP (push16 ret s)).sp = s.sp - 3 := by
    rw [pushP, push16, push8_sp, push8_sp, push8_sp, sub_sub, sub_sub]
    rfl
  have hbyte := fun b => byteAt_pushP_push16 ret hw b
  rw [takeException_eq ret set s h h']
  refine ⟨?sp, ?pc, ?hi, ?lo, ?p, fun b h0 h1 h2 => ?frame, ?rest⟩
  case sp => rw [State.setP_sp, State.setPc_sp, hsp]
  case pc => rw [State.setP_pc, State.setPc_pc]
  case hi => rw [byteAt_setP, byteAt_setPc, hbyte, if_neg h02, if_neg h01, if_pos rfl]
  case lo => rw [byteAt_setP, byteAt_setPc, hbyte, if_neg h12, if_pos rfl]
  case p => rw [byteAt_setP, byteAt_setPc, hbyte, if_pos rfl]
  case frame => rw [byteAt_setP, byteAt_setPc, hbyte, if_neg h2, if_neg h1, if_neg h0]
  case rest => simp [pushP, push16]

/-- The flags an entry sets are set after the push (R237, R253). -/
theorem takeException_p (ret : Word) {vector : Word} (set : Byte) (s : State) (h : region vector = .rom)
    (h' : region (vector + 1) = .rom) : (takeException ret vector set s).p = s.p ||| set := by
  rw [takeException_eq ret set s h h', State.setP_p]

theorem exec_brk_masked {s : State} (h : flag .I s.p = true) : exec .brk s = .next s :=
  congrArg Host.Outcome.next (if_pos h)

theorem exec_brk_taken {s : State} (h : flag .I s.p = false) :
    exec .brk s = .next (takeException (s.pc + 1) irqVector (flagMask .I ||| flagMask .B) s) :=
  congrArg Host.Outcome.next (if_neg (by rw [h]; decide))

/-- Settles O27: masked, BRK is no more than its fetch; taken, it is the entry of `enteredFrom_takeException`. -/
theorem breakEntersHandler : Obligations.BreakEntersHandler := by
  unfold Obligations.BreakEntersHandler
  refine ⟨rfl, fun s hw => ⟨exec_brk_masked, fun hI => ⟨_, exec_brk_taken hI, ?_, ?_, ?_⟩⟩⟩
  · exact enteredFrom_takeException _ _ hw (by decide) (by decide)
  · exact takeException_p _ _ s (by decide) (by decide)
  · exact takeException_host _ _ _ s

end Sys2Proof.Machine
end

section
/-! PROOFS. The family of spec/60_exceptions.md: the interrupts (O24, O25, O26), the return from a handler (O28), the
host's field writes (O29), and what stops the machine (O8, O30, O31). -/

namespace Sys2Proof.Machine

/-! ### The interrupts -/

theorem interruptRequest_masked {s : State} (h : flag .I s.p = true) : interruptRequest s = s := if_pos h

theorem interruptRequest_taken {s : State} (h : flag .I s.p = false) :
    interruptRequest s = takeException s.pc irqVector (flagMask .I) s := if_neg (by rw [h]; decide)

theorem enteredFrom_interruptRequest {s : State} (hw : s.ram.wf) (h : flag .I s.p = false) :
    EnteredFrom s (interruptRequest s) s.pc irqVector := by
  rw [interruptRequest_taken h]
  exact enteredFrom_takeException _ _ hw (by decide) (by decide)

theorem enteredFrom_nonMaskableInterrupt {s : State} (hw : s.ram.wf) :
    EnteredFrom s (nonMaskableInterrupt s) s.pc nmiVector :=
  enteredFrom_takeException _ _ hw (by decide) (by decide)

/-- The action taken off the host's sequence is nothing to an entry (R259). -/
theorem EnteredFrom.of_takeAction {s t : State} {ret vector : Word} (h : EnteredFrom s.takeAction t ret vector) :
    EnteredFrom s t ret vector := by
  simpa [EnteredFrom, wordAt, pushAddr] using h

/-- Settles O24: the step is `interruptRequest`, which returns its state or enters the handler. -/
theorem interruptRequestStep : Obligations.InterruptRequest := by
  unfold Obligations.InterruptRequest
  intro s hrunning hw haction
  have hstep : step s = .next (interruptRequest s.takeAction) := step_of_event hrunning haction
  refine ⟨fun hI => ?masked, fun hI => ⟨_, hstep, ?entered, ?p, ?host⟩⟩
  case masked => rw [hstep, interruptRequest_masked (s := s.takeAction) hI]
  case entered => exact (enteredFrom_interruptRequest (s := s.takeAction) hw hI).of_takeAction
  case p =>
    rw [interruptRequest_taken (s := s.takeAction) hI]
    exact takeException_p _ _ s.takeAction (by decide) (by decide)
  case host => exact hostEffect_host .interruptRequest s.takeAction

/-- Settles O26: `enteredFrom_nonMaskableInterrupt`, with no flag to set. -/
theorem nonMaskableInterruptStep : Obligations.NonMaskableInterrupt := by
  unfold Obligations.NonMaskableInterrupt
  intro s hrunning hw haction
  refine ⟨_, step_of_event hrunning haction, ?entered, ?p, ?host⟩
  case entered => exact (enteredFrom_nonMaskableInterrupt (s := s.takeAction) hw).of_takeAction
  case p => exact (takeException_p _ 0 s.takeAction (by decide) (by decide)).trans BitVec.or_zero
  case host => exact hostEffect_host .nonMaskableInterrupt s.takeAction

/-- After an interrupt request `P.I` is set: it was, or the entry set it (R253). -/
theorem flag_I_interruptRequest (s : State) : flag .I (interruptRequest s).p = true := by
  cases hI : flag .I s.p with
  | true => rw [interruptRequest_masked hI, hI]
  | false =>
    rw [interruptRequest_taken hI, takeException_p _ _ s (by decide) (by decide), flag_or]
    exact Bool.or_true _

theorem takeException_fatal (ret vector : Word) (set : Byte) (s : State) :
    (takeException ret vector set s).fatal = s.fatal := by
  simp [takeException, readWord, readPair_snd, pushP, push16]

/-- No event of the host stops the machine (R276). -/
theorem hostEffect_fatal (e : HostEvent) (s : State) : (hostEffect e s).fatal = s.fatal := by
  cases e with
  | reset =>
    rw [hostEffect, resetCpu_eq]
    rfl
  | interruptRequest =>
    simp only [hostEffect, interruptRequest]
    split
    · rfl
    · exact takeException_fatal _ _ _ s
  | nonMaskableInterrupt => exact takeException_fatal _ _ _ s
  | writeKeyboard | writeMouseX | writeMouseY | writeInterruptId | clearDirty => rfl

/-- Settles O25: the second request finds the `P.I` that `flag_I_interruptRequest` says the first left. -/
theorem secondRequestIsDropped : Obligations.SecondRequestIsDropped := by
  unfold Obligations.SecondRequestIsDropped
  intro s hrunning hfirst hsecond
  refine ⟨interruptRequest s.takeAction, step_of_event hrunning hfirst, ?_⟩
  have hstill : (interruptRequest s.takeAction).running :=
    (hostEffect_fatal .interruptRequest s.takeAction).trans hrunning
  have haction : (interruptRequest s.takeAction).nextAction = .event .interruptRequest := by
    rw [← hsecond, State.nextAction, State.nextAction]
    exact congrArg HostScript.next (hostEffect_host .interruptRequest s.takeAction)
  rw [step_of_event hstill haction]
  exact congrArg Host.Outcome.next (interruptRequest_masked (flag_I_interruptRequest s.takeAction))

/-! ### The return from a handler -/

theorem region_pushAddr (s : State) (k : Nat) : region (pushAddr s k) = .ram := region_stackAddr _

/-- The pulls of a return read the slots the pushes of the entry wrote, last first (R171). -/
theorem popAddr_eq_pushAddr {s t : State} {n j k : Nat} (hconfig : t.config = s.config)
    (hsp : t.sp = s.sp - BitVec.ofNat 8 n) (hn : n = j + k + 1) : popAddr t k = pushAddr s j := by
  have hslot : s.sp - BitVec.ofNat 8 n + BitVec.ofNat 8 k = s.sp - BitVec.ofNat 8 j - 1 := by
    have hone : BitVec.ofNat 8 1 = (1 : Byte) := rfl
    rw [hn, BitVec.ofNat_add, BitVec.ofNat_add, hone]
    ring
  rw [popAddr, hconfig, hsp, hslot, popSlot_sub_one, pushAddr]

/-- After an entry, RTI in any state with the same parameters, stack pointer and RAM gives back the return address,
`SP` and the pushed flags without the forced ones (R260). -/
theorem returnFromException_of_enteredFrom {s e t : State} {ret vector : Word} (he : EnteredFrom s e ret vector)
    (hconfig : t.config = s.config) (hsp : t.sp = e.sp) (hram : t.ram = e.ram) :
    returnFromException t = ((t.setSp s.sp).setPc ret).setP (s.p &&& ~~~s.config.forceMask) := by
  obtain ⟨hesp, -, hhi, hlo, hp, -⟩ := he
  rw [hesp] at hsp
  have h0 : popAddr t 0 = pushAddr s 2 := popAddr_eq_pushAddr hconfig hsp rfl
  have h1 : popAddr t 1 = pushAddr s 1 := popAddr_eq_pushAddr hconfig hsp rfl
  have h2 : popAddr t 2 = pushAddr s 0 := popAddr_eq_pushAddr hconfig hsp rfl
  have hread : ∀ k, t.ram.read (pushAddr s k).toNat = byteAt e (pushAddr s k) := fun k => by
    rw [hram, byteAt_ram (region_pushAddr s k)]
  have hback : t.sp + 3 = s.sp := by
    rw [hsp]
    exact BitVec.sub_add_cancel s.sp 3
  have hflags : (s.p ||| s.config.forceMask) &&& ~~~s.config.forceMask = s.p &&& ~~~s.config.forceMask :=
    restoredOnPop_forcedOnPush _ _
  rw [returnFromException_eq_popAddr, h0, h1, h2, hread, hread, hread, hhi, hlo, hp, hconfig, hback, hflags,
    mkWord_hiByte_loByte]

/-- RTI at the end of a handler, field by field (R260). -/
theorem exec_rti_of_enteredFrom {s e t : State} {ret vector : Word} (he : EnteredFrom s e ret vector)
    (hconfig : t.config = s.config) (hsp : t.sp = e.sp) (hram : t.ram = e.ram) :
    ∃ u, exec .rti t = .next u ∧ u.pc = ret ∧ u.sp = s.sp ∧ u.p = s.p &&& ~~~s.config.forceMask ∧ u.ram = t.ram := by
  refine ⟨returnFromException t, rfl, ?_⟩
  rw [returnFromException_of_enteredFrom he hconfig hsp hram]
  exact ⟨rfl, rfl, rfl, rfl⟩

/-- Settles O28: the three entries are the same but for the return address. -/
theorem handlerReturnResumes : Obligations.HandlerReturnResumes := by
  unfold Obligations.HandlerReturnResumes
  intro s t hw hconfig
  refine ⟨fun hI hsp hram => ?irq, fun hsp hram => ?nmi, fun h hI hbrk hsp hram => ?brk⟩
  case irq => exact exec_rti_of_enteredFrom (enteredFrom_interruptRequest hw hI) hconfig hsp hram
  case nmi => exact exec_rti_of_enteredFrom (enteredFrom_nonMaskableInterrupt hw) hconfig hsp hram
  case brk =>
    rw [exec_brk_taken hI] at hbrk
    cases hbrk
    exact exec_rti_of_enteredFrom (enteredFrom_takeException _ _ hw (by decide) (by decide)) hconfig hsp hram

/-! ### The host's field writes -/

theorem takeException_bank (ret vector : Word) (set : Byte) (s : State) :
    (takeException ret vector set s).bank = s.bank := by
  simp [takeException, readWord, readPair_snd, pushP, push16]

/-- Settles O29: a field write is its record update; the CPU's events leave the whole bank. -/
theorem hostFieldWrites : Obligations.HostFieldWrites := by
  unfold Obligations.HostFieldWrites
  refine ⟨fun s v hrunning => ⟨?_, ?_, ?_, ?_, ?_⟩, fun s e => ?slots⟩
  case slots =>
    cases e with
    | reset => simp [hostEffect, resetCpu_eq]
    | interruptRequest =>
      simp only [hostEffect, interruptRequest]
      split
      · exact ⟨rfl, rfl, rfl, rfl, rfl⟩
      · simp [takeException_bank]
    | nonMaskableInterrupt => simp [hostEffect, nonMaskableInterrupt, takeException_bank]
    | writeKeyboard | writeMouseX | writeMouseY | writeInterruptId | clearDirty => exact ⟨rfl, rfl, rfl, rfl, rfl⟩
  all_goals exact step_of_event hrunning

/-! ### What stops the machine -/

/-- An instruction stops the machine exactly by its data write at slot 8; stack writes and reads do not (R78, R251). -/
theorem ExecEffect.fatal {i : Instr} {s t : State} (h : ExecEffect i s t) :
    t.fatal = (decide (dataStore i s = some 0x6008) || s.fatal) := by
  unfold ExecEffect at h
  split at h
  · rename_i a ha
    obtain ⟨-, v, u, hread, -, rfl⟩ := h
    rw [writeByte_fatal, hread.fatal, ha]
    simp only [Option.some.injEq]
  · rename_i ha
    obtain ⟨vs, -, hwrites⟩ := h
    have hfatal : t.fatal = s.fatal := hwrites.rest.fatal
    rw [hfatal, ha]
    rfl

/-- Every instruction completes in a running machine, and stops it exactly by its data write at slot 8. -/
theorem exec_fatal_iff (i : Instr) {s : State} (hrunning : s.running) :
    ∃ t, exec i s = .next t ∧ (t.fatal = true ↔ dataStore i s = some 0x6008) := by
  obtain ⟨t, ht, heffect⟩ := exec_effect i s
  refine ⟨t, ht, ?_⟩
  rw [heffect.fatal, hrunning, Bool.or_false, decide_eq_true_iff]

/-- Settles O31, by `exec_fatal_iff`. -/
theorem onlyCartDataWritesAreFatal : Obligations.OnlyCartDataWritesAreFatal := by
  unfold Obligations.OnlyCartDataWritesAreFatal
  exact fun i _ hrunning => exec_fatal_iff i hrunning

/-- At slot 8 the data write sets `FATAL`, whatever the form: the read before it has no effect (R78). -/
theorem exec_of_dataStore_cartData {i : Instr} {s : State} (h : dataStore i s = some 0x6008) :
    ∃ p, exec i s = .next ((s.setP p).setFatal true) := by
  have hread : afterRead 0x6008 s = s := afterRead_eq_self s (.inl (by decide))
  obtain ⟨v, hexec | ⟨p, hexec⟩⟩ := exec_of_dataStore h
  · exact ⟨s.p, hexec⟩
  · rw [hread] at hexec
    exact ⟨p, hexec⟩

/-- Settles O30: such an instruction sets `FATAL`, and changes `P` in the flags it is listed for. -/
theorem fatalWriteStopsMachine : Obligations.FatalWriteStopsMachine := by
  unfold Obligations.FatalWriteStopsMachine
  refine ⟨fun i s h => ?_, fun s => step_of_fatal⟩
  obtain ⟨p, hexec⟩ := exec_of_dataStore_cartData h
  obtain ⟨t, ht, hflags⟩ := flagsChangeOnlyAsListed i s
  rw [hexec] at ht
  cases ht
  exact ⟨_, hexec, rfl, rfl, rfl, rfl, rfl, rfl, rfl, rfl, rfl, rfl, rfl, hflags⟩

/-- Three bytes are enough for any instruction: the bytes at `PC` decode, or their opcode is unknown (R101, R121). -/
theorem decodeWith_bytesAtPc (absent : List Byte) (s : State) :
    (∃ i rest, decodeWith absent (bytesAtPc s) = .ok (i, rest)) ∨
      decodeOpcode absent (byteAt s s.pc) = none ∧ ∀ r, decodeWith absent (bytesAtPc s) ≠ .ok r := by
  cases h : decodeOpcode absent (byteAt s s.pc) with
  | some f =>
    cases f <;> exact .inl (by simp [bytesAtPc, decodeWith, h])
  | none =>
    exact .inr ⟨rfl, fun r => by simp [bytesAtPc, decodeWith, h]⟩

/-- A running machine takes every step, and the step sets `FATAL` exactly if it is a `tick()` whose instruction makes
its data write at slot 8 (R262, R271). -/
theorem step_fatal_iff {s : State} (hrunning : s.running) : ∃ t, step s = .next t ∧
    (t.fatal = true ↔ s.nextAction = .tick ∧ ∃ i rest,
      decodeWith s.config.absentOpcodes (bytesAtPc s) = .ok (i, rest) ∧
        dataStore i (afterFetches (instrLength i) s.takeAction) = some 0x6008) := by
  cases haction : s.nextAction with
  | event e =>
    refine ⟨_, step_of_event hrunning haction, ?_⟩
    rw [hostEffect_fatal, State.takeAction_fatal, hrunning]
    simp
  | tick =>
    obtain ⟨i, rest, hdecode⟩ | ⟨hunknown, hreject⟩ := decodeWith_bytesAtPc s.config.absentOpcodes s
    · have hfetched : (afterFetches (instrLength i) s.takeAction).running := (afterFetches_fatal _ _).trans hrunning
      obtain ⟨t, ht, hfatal⟩ := exec_fatal_iff i hfetched
      refine ⟨t, by rw [stepRunsDecodedInstruction s i rest hrunning haction hdecode, ht], ?_⟩
      rw [hfatal, hdecode]
      constructor
      · exact fun h => ⟨rfl, i, rest, rfl, h⟩
      · rintro ⟨-, j, rest', hj, h⟩
        cases hj
        exact h
    · refine ⟨_, step_of_unknown hrunning haction hunknown, ?_⟩
      have hkept : (unknownOpcode (byteAt s s.pc) (afterFetches 1 s.takeAction)).fatal = false :=
        (afterFetches_fatal 1 s.takeAction).trans hrunning
      rw [hkept]
      constructor
      · exact fun h => absurd h Bool.false_ne_true
      · rintro ⟨-, i, rest, h, -⟩
        exact absurd h (hreject _)

/-- Settles O8: by `step_fatal_iff` a running machine answers a next state, so no fault. -/
theorem runningMachineAlwaysSteps : Obligations.RunningMachineAlwaysSteps := by
  unfold Obligations.RunningMachineAlwaysSteps
  refine ⟨fun s => ⟨fun hrunning => ?completes, fun hfault => ?stopped, step_of_fatal⟩,
    fun s t hrunning hstep => ?fatal⟩
  case completes =>
    obtain ⟨t, ht, -⟩ := step_fatal_iff hrunning
    exact ⟨t, ht⟩
  case stopped =>
    by_contra hf
    obtain ⟨t, ht, -⟩ := step_fatal_iff (Bool.eq_false_iff.2 hf)
    rw [ht] at hfault
    cases hfault
  case fatal =>
    obtain ⟨t', ht', hfatal⟩ := step_fatal_iff hrunning
    rw [ht'] at hstep
    cases hstep
    exact hfatal

end Sys2Proof.Machine
end

section
/-! PROOFS. The family of spec/70_reset_and_hazards.md: the host action `reset()` (O22). -/

namespace Sys2Proof.Machine

/-- The RESET vector is a little-endian word of the ROM image (R290, R68). -/
theorem toNat_wordAt_resetVector (s : State) :
    (wordAt s resetVector).toNat = (s.rom.read 0x7FFD).toNat * 256 + (s.rom.read 0x7FFC).toNat :=
  toNat_mkWord _ _

/-- `reset()` sets its registers from the ROM image alone, so again to the same (R291). -/
theorem resetCpu_resetCpu (s : State) : resetCpu (resetCpu s) = resetCpu s := by
  have hvector : wordAt (resetCpu s) resetVector = wordAt s resetVector := by simp [resetCpu_eq s, wordAt]
  rw [resetCpu_eq (resetCpu s), hvector, resetCpu_eq s]
  apply State.eq_of_fields <;> simp

/-- Settles O22: the step is `resetCpu_eq`, after the action is taken off the host's sequence. -/
theorem resetAction : Obligations.ResetAction := by
  unfold Obligations.ResetAction
  refine ⟨fun s hrunning haction => ⟨_, step_of_event hrunning haction, ?_⟩, resetCpu_resetCpu,
    fun s hfatal _ => step_of_fatal hfatal⟩
  rw [hostEffect, resetCpu_eq]
  exact ⟨rfl, rfl, rfl, rfl, rfl, toNat_wordAt_resetVector s.takeAction, rfl, rfl, rfl, rfl, rfl,
    rfl, rfl, rfl, rfl, rfl⟩

end Sys2Proof.Machine
end
